-- ==== Sys2Proof/Word.lean ====
section
/-! DEFINITION. The word types of the block (30_encoding.md R60, R71, R72). -/

namespace Sys2Proof

/-- A character, a pattern, a scan code or a key symbol: 8 bits (R10, R60, R65, R68). -/
abbrev Byte := BitVec 8

/-- A digit position, an integer in 0..3, as 2 bits (R71). -/
abbrev Pos := BitVec 2

/-- A command word `op[23:16] a[15:8] b[7:0]`, one number with no byte order (R72, R45). -/
abbrev Word24 := BitVec 24

end Sys2Proof
end

