-- ==== Sys2Proof/Config.lean ====
section
/-! DEFINITION. The parameters the spec leaves OPEN (00_scope.md section 5, R6) and the free values behind
every "any value" of R30. None has a body: nothing can be proved of a particular value. The tables with a
default instance (`SEGROM`, `KEYTAB`) are a field of the state, Machine/State.lean. -/

namespace Sys2Proof

/-- `TCNT_W`, the width of the hardware tick counter. OPEN (D23); log entry 10. -/
opaque Config.tcntW : Nat

/-- A value of the tick counter or of a deadline register: `TCNT_W` bits (R17). -/
abbrev Count := BitVec Config.tcntW

/-- `T_DISP`, the display tick interval. OPEN (D23, R185); log entry 10. -/
opaque Config.tDisp : Nat

/-- `T_KEY`, the keypad tick interval. OPEN (D23, R186); log entry 10. -/
opaque Config.tKey : Nat

/-- `DIG_ACTIVE_LOW`, the polarity of the digit-enable pins. OPEN (D7, R13); log entry 10. -/
opaque Config.digActiveLow : Bool

/-- `POS0_RIGHTMOST`, whether position 0 is the rightmost digit. OPEN (D8); log entry 10. -/
opaque Config.pos0Rightmost : Bool

/-- `SEG_STAR`, bits 0 to 6; bit 7 is 0 (R62). OPEN (D5); log entry 10. -/
opaque Config.segStar : BitVec 7

/-- `SEG_HASH`, bits 0 to 6; bit 7 is 0 (R62). OPEN (D5); log entry 10. -/
opaque Config.segHash : BitVec 7

/-- Free 8-bit values: what `RESET` leaves in `DB[0..3]`, `SEG` and `KQ` (R30); log entry 2. -/
opaque Config.freeByte : Nat → Byte

/-- Free 2-bit values: what `RESET` leaves in `CUR` (R30); log entry 2. -/
opaque Config.freePos : Nat → Pos

/-- Free 4-bit values: what `RESET` leaves in `EN` (R30); log entry 2. -/
opaque Config.freeNibble : Nat → BitVec 4

/-- Free state codes of R70: what `RESET` leaves in `KST` (R30); log entry 2. -/
opaque Config.freeKstCode : Nat → BitVec 2

/-- Free counts: what `RESET` leaves in `DCMP`, `KCMP` and `TCNT` (R30, R170); log entry 2. -/
opaque Config.freeCount : Nat → Count

end Sys2Proof
end

