-- ==== Sys2Proof/Machine/Tables.lean ====
section
/-! DEFINITION. The two read-only tables `SEGROM` (R61, R62) and `KEYTAB` (R66, R67) as configuration: what a
table is, the spec's default instances, how an entry is read, what the spec asks of a table; and the constants
the spec decides. PRESUMED codes: log entry 9. -/

namespace Sys2Proof.Machine

/-- One entry of `SEGROM`: a character and its pattern (R61). -/
structure SegRow where
  char : Byte
  pattern : Byte
  deriving DecidableEq, Repr

/-- One row `(CODE[i], SYM[i])` of `KEYTAB` (R66). -/
structure KeyRow where
  code : Byte
  sym : Byte
  deriving DecidableEq, Repr

/-- The two tables of the configuration (R6, R18): any `SEGROM` and any `KEYTAB`. `Tables.wf` is what the spec
asks of them. Log entries 7, 8, 23. -/
structure Tables where
  /-- `SEGROM`: the characters that have a pattern; every other character is blank (R61, R62). -/
  segrom : List SegRow
  /-- `KEYTAB`, in scan order (R66, R67). -/
  keytab : List KeyRow
  deriving DecidableEq, Repr

/-- `SEG_STAR` and `SEG_HASH` as 8-bit patterns: bit 7 is 0 (R62). -/
def openPattern (p : BitVec 7) : Byte := p.setWidth 8

/-- The default instance of `SEGROM`, the table of R62. Only `'5'` and `'a'` are the source's values; space is
decision D3; the others are general knowledge (log entry 7), `'*'` and `'#'` open parameters. -/
def defaultSegrom : List SegRow :=
  [⟨0x30, 0x3F⟩, ⟨0x31, 0x06⟩, ⟨0x32, 0x5B⟩, ⟨0x33, 0x4F⟩, ⟨0x34, 0x66⟩,
   ⟨0x35, 0x6D⟩, ⟨0x36, 0x7D⟩, ⟨0x37, 0x07⟩, ⟨0x38, 0x7F⟩, ⟨0x39, 0x6F⟩] ++
  [⟨0x61, 0x77⟩, ⟨0x62, 0x7C⟩, ⟨0x63, 0x39⟩, ⟨0x64, 0x5E⟩, ⟨0x65, 0x79⟩, ⟨0x66, 0x71⟩] ++
  [⟨0x2A, openPattern Config.segStar⟩, ⟨0x23, openPattern Config.segHash⟩, ⟨0x20, 0x00⟩]

/-- The default instance of `KEYTAB`, the table of R67. Only the pair `(0xEE, '1')` is the source's (log
entry 8). -/
def defaultKeytab : List KeyRow :=
  [⟨0xEE, 0x31⟩, ⟨0xED, 0x32⟩, ⟨0xEB, 0x33⟩, ⟨0xE7, 0x61⟩] ++
  [⟨0xDE, 0x34⟩, ⟨0xDD, 0x35⟩, ⟨0xDB, 0x36⟩, ⟨0xD7, 0x62⟩] ++
  [⟨0xBE, 0x37⟩, ⟨0xBD, 0x38⟩, ⟨0xBB, 0x39⟩, ⟨0xB7, 0x63⟩] ++
  [⟨0x7E, 0x2A⟩, ⟨0x7D, 0x30⟩, ⟨0x7B, 0x23⟩, ⟨0x77, 0x64⟩]

/-- The default instance of the configuration tables (R62, R67). -/
def defaultTables : Tables := ⟨defaultSegrom, defaultKeytab⟩

/-- `BLANK_CHAR`, the character `INITD` and `CLRD` write (00_scope.md section 5, D3). -/
def blankChar : Byte := 0x20

/-- `NOKEY`, the empty-queue sentinel (R69). -/
def noKey : Byte := 0x00

/-- One entry of a `SEGROM` given by its rows: every other character is blank, `0x00` (R61). -/
def segLookup (rows : List SegRow) (c : Byte) : Byte :=
  match rows.find? (fun r => r.char == c) with
  | some r => r.pattern
  | none => 0x00

/-- `encode(c) = MemRead(SEGROM, c)`, the SegmentEncoder (R90). -/
def encode (t : Tables) (c : Byte) : Byte := segLookup t.segrom c

/-- The supported alphabet of R61, in the order of the table of R62. -/
def supportedAlphabet : List Byte :=
  [0x30, 0x31, 0x32, 0x33, 0x34, 0x35, 0x36, 0x37, 0x38, 0x39] ++ [0x61, 0x62, 0x63, 0x64, 0x65, 0x66] ++
  [0x2A, 0x23, 0x20]

/-- What the spec asks of a `SEGROM`: only supported characters have a pattern (R61), bit 7 is 0 (R63), the
source's two patterns, and a blank space (R62). Any of `'b'` to `'f'` may be missing (U2). -/
def segromOk (rows : List SegRow) : Bool :=
  rows.all (fun r => decide (r.char ∈ supportedAlphabet) && !r.pattern.getLsbD 7) &&
    segLookup rows 0x35 == 0x6D && segLookup rows 0x61 == 0x77 && segLookup rows 0x20 == 0x00

/-- The sixteen key symbols of R68: digits, `a` to `d`, `*`, `#`. -/
def keySymbols : List Byte :=
  [0x30, 0x31, 0x32, 0x33, 0x34, 0x35, 0x36, 0x37, 0x38, 0x39] ++ [0x61, 0x62, 0x63, 0x64, 0x2A, 0x23]

/-- What the spec asks of a `KEYTAB`: sixteen rows, codes pairwise distinct, symbols exactly the sixteen, and
the row `(0xEE, '1')` (R66). -/
def keytabOk (rows : List KeyRow) : Bool :=
  rows.length == 16 && decide (rows.map KeyRow.code).Nodup && (rows.map KeyRow.sym).isPerm keySymbols &&
    decide (⟨0xEE, 0x31⟩ ∈ rows)

/-- Both tables are as the spec asks (R61 to R63, R66). -/
def Tables.wf (t : Tables) : Bool := segromOk t.segrom && keytabOk t.keytab

end Sys2Proof.Machine
end

