-- ==== Sys2Proof/Machine/State.lean ====
section
/-! DEFINITION. The state of the block (10_state.md section 1), the configuration tables and the model's own
fields beside it, the refusals, and the state after reset. INVENTORY.md lists every field with its rule and
reset value. -/

namespace Sys2Proof.Machine

/-- `DB`, the DisplayBuffer: four character slots, index = digit position (R10). Every slot always holds a
byte; there is no address map (R55), so this is no list of cells (log entry 17). -/
structure DisplayBuffer where
  d0 : Byte
  d1 : Byte
  d2 : Byte
  d3 : Byte
  deriving DecidableEq, Repr

/-- `KST`, the DebounceState (R14). -/
inductive DebounceState where
  /-- "no key currently considered pressed" (R114). -/
  | idle
  /-- One active sample seen (R115). -/
  | pressPending
  /-- The press is accepted; waiting for the release (R116). -/
  | pressedWaitRelease
  /-- One inactive sample seen (R117). -/
  | releasePending
  deriving DecidableEq, Repr

/-- The two execution contexts of R152. -/
inductive Context where
  /-- The main line. -/
  | normal
  /-- The inside of a tick handler. -/
  | interrupt
  deriving DecidableEq, Repr

/-- What the host, the one thread of control, is in the middle of (R49, R93, R133). The model's own field;
log entries 4 and 6. -/
inductive HostOp where
  /-- Nothing: the host may issue its next operation. -/
  | free
  /-- A `CLRD` whose writes to these slots have not happened yet (R93). -/
  | clearing (pending : List Pos)
  /-- A `READK` that holds until `KQ != NOKEY` (R133). -/
  | holding
  deriving DecidableEq, Repr

/-- One choice of the interleaving while the host is inside an operation (R49, U8). Log entry 4. -/
inductive Choice where
  /-- Another agent's event comes before the host's next atomic step. -/
  | yield
  /-- The next slot write of `CLRD` is this one. -/
  | slot (i : Pos)
  deriving DecidableEq, Repr

/-- One event presented to the block: a command word (R72), how far the tick counter moved before it
(R155; log entry 11), the context it was issued in (R152; log entry 15), and the interleaving choices it
brings (R49; log entry 4). Log entry 3. -/
structure Event where
  elapsed : Nat
  ctx : Context
  word : Word24
  choices : List Choice
  deriving DecidableEq, Repr

/-- Faults: the block has "No exception-style error channel" and nothing stops it (R140, R146), so this
closed inductive has no constructor. -/
inductive Fault where
  deriving DecidableEq, Repr

/-- Refusals, the model's verdict that a trace has no meaning (R144). All are safe: no claim about a next
state can be proved of a refused trace (log entry 20). -/
inductive Refusal where
  /-- Raised by an arm of exec that has no meaning yet; no arm of this model raises it. Safe. -/
  | notModelled (mnemonic : String)
  /-- Raised by the step: the word's `op` is not in the opcode map (R76). Safe. -/
  | reservedOpcode (op : Byte)
  /-- Raised by the step: a format N word with a nonzero operand field (R77). Safe. -/
  | reservedOperand (word : Word24)
  /-- Raised by `SETC` with `position > 3`, a caller contract violation (R94, R143). Safe. -/
  | positionOutOfRange (position : Byte)
  /-- Raised by `TICKD` while `DARM = 0` (R148). Safe. -/
  | displayUnarmed
  /-- Raised by `TICKK` while `KARM = 0` (R148). Safe. -/
  | keypadUnarmed
  /-- Raised by every host operation issued from within a tick (R153, R135). Safe. -/
  | hostOpInTick
  deriving DecidableEq, Repr

/-- The state: first the spec's (R10 to R17, R152), then the configuration tables, which no step writes (R6),
then the model's own fields. -/
structure State where
  /-- `DB[0..3]` (R10). -/
  db : DisplayBuffer
  /-- `CUR`, the position the next display tick drives (R11). -/
  cur : Pos
  /-- `SEG`, the segment-pattern output register (R12). -/
  seg : Byte
  /-- `EN`, the logical digit-enable output register (R13). -/
  en : BitVec 4
  /-- `KST` (R14). -/
  kst : DebounceState
  /-- `KQ`, the one-entry key event queue (R15). -/
  kq : Byte
  /-- `DARM` (R16). -/
  darm : Bool
  /-- `KARM` (R16). -/
  karm : Bool
  /-- `TCNT`, the free-running tick counter (R17, R155). -/
  tcnt : Count
  /-- `DCMP`, the display tick's next deadline (R17). -/
  dcmp : Count
  /-- `KCMP`, the keypad tick's next deadline (R17). -/
  kcmp : Count
  /-- `DPEND`, a display tick is due and its handler has not run (R17). -/
  dpend : Bool
  /-- `KPEND`, a keypad tick is due and its handler has not run (R17). -/
  kpend : Bool
  /-- The context the running event was issued in (R152). -/
  ctx : Context
  /-- CONFIGURATION: the tables this machine is built with (R6, R18). Log entry 23. -/
  tables : Tables
  /-- MODEL: what the host is in the middle of. -/
  host : HostOp
  /-- MODEL: the byte the last step returned to the host (R81). Log entry 18. -/
  ret : Option Byte
  /-- MODEL: the events still to come. Log entry 3. -/
  trace : List Event
  /-- MODEL: the interleaving choices still to come; every event may bring more. Log entry 4. -/
  sched : List Choice
  /-- MODEL: how many free values have been drawn. Log entry 2. -/
  draws : Nat
  deriving DecidableEq, Repr

/-- The state right after device reset: arm and pending bits 0 (R30); the elements R30 leaves unspecified at
the values log entry 1 names (DESIGN CHOICE); the tables at their default instance (log entries 7, 8, 23);
no event presented (log entry 3). -/
def State.reset : State where
  db := ⟨0, 0, 0, 0⟩
  cur := 0
  seg := 0
  en := 0
  kst := .idle
  kq := 0
  darm := false
  karm := false
  tcnt := 0
  dcmp := 0
  kcmp := 0
  dpend := false
  kpend := false
  ctx := .normal
  tables := defaultTables
  host := .free
  ret := none
  trace := []
  sched := []
  draws := 0

end Sys2Proof.Machine
end

