-- ==== Sys2Proof/Machine/Flags.lean ====
section
/-! DEFINITION. The block's one condition flag, derived and not stored (R21). -/

namespace Sys2Proof.Machine

/-- *Key pending*: `KQ != NOKEY` (R21), "the shared flag". There is no other condition code. -/
def keyPending (s : State) : Bool := s.kq != noKey

end Sys2Proof.Machine
end

