-- ==== Sys2Proof/Machine/Operands.lean ====
section
/-! DEFINITION. The operand forms: the position of `SETC` (R71, R74), the environment's answer of `TICKK`
as a function and as an echo vector (R75, R111), the two decoders of the keypad side (R110, R112), and the state
codes of R70. -/

namespace Sys2Proof.Machine

/-- The position operand of `SETC`: a slot when `b <= 3`, else no slot (R74, R94). -/
def slotOf (position : Byte) : Option Pos :=
  if position ≤ 3 then some (position.setWidth 2) else none

/-- `onehot4(i)`: bit `i` set and all others clear (R64). -/
def onehot4 (i : Pos) : BitVec 4 := 1#4 <<< i.toNat

/-- `decode(bits)` against a table: the symbol of the row whose code is exactly `bits`, else `NONE` (R110). -/
def decodeIn (rows : List KeyRow) (bits : Byte) : Option Byte :=
  (rows.find? (fun r => r.code == bits)).map (fun r => r.sym)

/-- `decode(bits)`, the KeyMatrixDecoder (R110). -/
def decode (t : Tables) (bits : Byte) : Option Byte := decodeIn t.keytab bits

/-- `scan(M)` against a table: drive each code in row order, accept the first exact echo (R111). -/
def scanAnswerIn : List KeyRow → (Byte → Byte) → Option Byte
  | [], _ => none
  | r :: rows, answer => if answer r.code = r.code then some r.sym else scanAnswerIn rows answer

/-- `scan(M)`, the scanner, over the environment's answer function `M` (R111). -/
def scanAnswer (t : Tables) (answer : Byte → Byte) : Option Byte := scanAnswerIn t.keytab answer

/-- The scan from table index `i` on, over an echo vector: `SYM` of the first row whose bit is set (R111). -/
def scanFrom : List KeyRow → Nat → BitVec 16 → Option Byte
  | [], _, _ => none
  | r :: rows, i, e => if e.getLsbD i then some r.sym else scanFrom rows (i + 1) e

/-- `scan` over the echo vector `e` of a `TICKK` word: lowest table index wins, `NONE` when `e = 0`
(R75, R111). -/
def scan (t : Tables) (e : BitVec 16) : Option Byte := scanFrom t.keytab 0 e

/-- The bits `e[i] = (M(CODE[i]) == CODE[i])` of a table's rows, from index `i` on (R75). -/
def echoFrom : List KeyRow → Nat → (Byte → Byte) → BitVec 16
  | [], _, _ => 0
  | r :: rows, i, answer =>
    (if answer r.code = r.code then 1#16 <<< i else 0) ||| echoFrom rows (i + 1) answer

/-- The echo vector that summarises an answer function (R75). -/
def echoOf (t : Tables) (answer : Byte → Byte) : BitVec 16 := echoFrom t.keytab 0 answer

/-- The echo vector in which only the code of table index `i` echoes: `1 << i` (R80). -/
def echoOnly (i : Nat) : BitVec 16 := 1#16 <<< i

/-- The 2-bit codes of R70 for `KST`, used here to read a draw as a state (log entry 2). -/
def kstOfCode (c : BitVec 2) : DebounceState :=
  if c = 0 then .idle else if c = 1 then .pressPending else if c = 2 then .pressedWaitRelease
  else .releasePending

/-- The code of a DebounceState (R70, for state dumps only). -/
def kstCode : DebounceState → BitVec 2
  | .idle => 0
  | .pressPending => 1
  | .pressedWaitRelease => 2
  | .releasePending => 3

end Sys2Proof.Machine
end

