-- ==== Sys2Proof/Machine/Ops.lean ====
section
/-! DEFINITION. The named operations over the state: slots of `DB`, the output registers, the timing state,
the queue, the debounce state, the host's agent, the free values, and taking a tick interrupt. -/

namespace Sys2Proof.Machine

/-- What a step answers. -/
abbrev Result := Host.Outcome State Fault Refusal

/-- Read slot `i` of `DB` (R44). -/
def DisplayBuffer.get (b : DisplayBuffer) (i : Pos) : Byte :=
  if i = 0 then b.d0 else if i = 1 then b.d1 else if i = 2 then b.d2 else b.d3

/-- Write slot `i` of `DB`: the one slot and nothing else (R44, R47). -/
def DisplayBuffer.set (b : DisplayBuffer) (i : Pos) (c : Byte) : DisplayBuffer :=
  if i = 0 then { b with d0 := c } else if i = 1 then { b with d1 := c }
  else if i = 2 then { b with d2 := c } else { b with d3 := c }

/-- The buffer with `BLANK_CHAR` in every slot (R31). -/
def blankBuffer : DisplayBuffer := ⟨blankChar, blankChar, blankChar, blankChar⟩

/-- `DB[i] <- c`. -/
def writeSlot (i : Pos) (c : Byte) (s : State) : State := { s with db := s.db.set i c }

/-- `EN <- onehot4(i)`, step 3 of R91: only position `i` is active (R64). -/
def driveEnable (i : Pos) (s : State) : State := { s with en := onehot4 i }

/-- `SEG <- pat`, step 4 of R91. -/
def drivePattern (pat : Byte) (s : State) : State := { s with seg := pat }

/-- `CUR <- (CUR + 1) mod 4`, step 5 of R91: 2 bits, 3 wraps to 0 (R79). -/
def advanceCursor (s : State) : State := { s with cur := s.cur + 1 }

/-- `DCMP <- (TCNT + T_DISP) mod 2^TCNT_W`, and the pending tick is served (R156, R91). -/
def rescheduleDisplay (s : State) : State :=
  { s with dcmp := s.tcnt + BitVec.ofNat Config.tcntW Config.tDisp, dpend := false }

/-- `KCMP <- (TCNT + T_KEY) mod 2^TCNT_W`, and the pending tick is served (R156; DEDUCED for `KPEND`, log
entry 12). -/
def rescheduleKeypad (s : State) : State :=
  { s with kcmp := s.tcnt + BitVec.ofNat Config.tcntW Config.tKey, kpend := false }

/-- `DARM <- 1` (R16, R148). -/
def armDisplay (s : State) : State := { s with darm := true }

/-- `KARM <- 1` (R16, R148). -/
def armKeypad (s : State) : State := { s with karm := true }

/-- `KST <- k`. -/
def setKst (k : DebounceState) (s : State) : State := { s with kst := k }

/-- `KQ <- NOKEY`. -/
def emptyQueue (s : State) : State := { s with kq := noKey }

/-- Publish `sym` when the queue is empty; when it is not, the press is dropped (R115, R130, R131). -/
def publish (sym : Byte) (s : State) : State := if keyPending s then s else { s with kq := sym }

/-- The consumer's atomic drain: return `KQ` to the host and clear it in the same step (R53, R132). -/
def drain (s : State) : State := { s with ret := some s.kq, kq := noKey }

/-- A step begins: nothing has been returned to the host in it yet (R81; log entry 18). -/
def beginStep (s : State) : State := { s with ret := none }

/-- The host waits in `READK`: it has no step while `KQ == NOKEY` (R133). -/
def hold (s : State) : State := { s with host := .holding }

/-- The host's operation is over. -/
def release (s : State) : State := { s with host := .free }

/-- `TCNT` counts from `now` through `n` increments: does it take the value `cmp` on the way (R155)?
DEDUCED; log entry 11. -/
def reaches (now : Count) (n : Nat) (cmp : Count) : Bool :=
  let d := (cmp - now).toNat
  decide ((if d = 0 then 2 ^ Config.tcntW else d) ≤ n)

/-- `n` increments of `TCNT` pass: the counter wraps at its width, and an armed source whose deadline is
reached becomes pending (R155, R17). -/
def passTime (n : Nat) (s : State) : State :=
  if n = 0 then s
  else { s with
    tcnt := s.tcnt + BitVec.ofNat Config.tcntW n
    dpend := s.dpend || (s.darm && reaches s.tcnt n s.dcmp)
    kpend := s.kpend || (s.karm && reaches s.tcnt n s.kcmp) }

/-- Every state element but the arm and pending bits takes a fresh free value, under no law (R30, R170, U5);
`TCNT` too, since nothing survives (R3, R170); log entry 2. -/
def drawUnspecified (s : State) : State :=
  { s with
    db := ⟨Config.freeByte s.draws, Config.freeByte (s.draws + 1), Config.freeByte (s.draws + 2),
      Config.freeByte (s.draws + 3)⟩
    seg := Config.freeByte (s.draws + 4)
    kq := Config.freeByte (s.draws + 5)
    cur := Config.freePos s.draws
    en := Config.freeNibble s.draws
    kst := kstOfCode (Config.freeKstCode s.draws)
    dcmp := Config.freeCount s.draws
    kcmp := Config.freeCount (s.draws + 1)
    tcnt := Config.freeCount (s.draws + 2)
    draws := s.draws + 6 }

/-- Taking a tick interrupt: the handler runs to completion in interrupt context and control returns to the
context it preempted; entry and return save and change no state of the block (R150, R151, R152). -/
def inHandler (handler : State → State) (s : State) : State :=
  { handler { s with ctx := .interrupt } with ctx := s.ctx }

/-- A host operation belongs to normal context; issued from within a tick it is refused (R153, R135). -/
def fromHost (s : State) (t : State) : Result :=
  match s.ctx with
  | .interrupt => .refused .hostOpInTick
  | .normal => .next t

end Sys2Proof.Machine
end

