-- ==== Sys2Proof/Machine/Display.lean ====
section
/-! DEFINITION. The display side (40_display.md): `TICKD`, `INITD`, `CLRD`, `SETC`. -/

namespace Sys2Proof.Machine

/-- The five numbered steps of R91 and the reschedule, in the source's order. -/
def refreshTick (s : State) : State :=
  rescheduleDisplay (advanceCursor (drivePattern (encode s.tables (s.db.get s.cur)) (driveEnable s.cur s)))

/-- `TICKD` (R91): refused while the display engine is not armed (R148), otherwise always completes (R99). -/
def execTickd (s : State) : Result :=
  if s.darm then .next (inHandler refreshTick s) else .refused .displayUnarmed

/-- The display engine's initial state (R92, R31). -/
def initDisplay (s : State) : State :=
  rescheduleDisplay (armDisplay { s with cur := 0, db := blankBuffer, seg := 0x00, en := 0 })

/-- `INITD` (R92), one atomic step (D13). -/
def execInitd (s : State) : Result := fromHost s (initDisplay s)

/-- The slot writes of a `CLRD` under the choices still to come: each `slot i` writes a pending slot, a
`yield` stops before the next write, and with no choice left the pending slots are written in turn (R93).
Answers the choices left, the slots still to be written and the buffer. -/
def clearRun : List Choice → List Pos → DisplayBuffer → List Choice × List Pos × DisplayBuffer
  | [], pending, b => ([], [], pending.foldl (fun b i => b.set i blankChar) b)
  | c :: cs, pending, b =>
    match pending, c with
    | [], _ => (c :: cs, [], b)
    | _ :: _, .yield => (c :: cs, pending, b)
    | _ :: _, .slot i =>
      clearRun cs (pending.filter (fun p => p != i)) (if i ∈ pending then b.set i blankChar else b)

/-- Continue a `CLRD` with these slots still to be written; it is over when none is left. -/
def advanceClear (pending : List Pos) (s : State) : State :=
  let r := clearRun s.sched pending s.db
  { s with sched := r.1, db := r.2.2, host := if r.2.1.isEmpty then .free else .clearing r.2.1 }

/-- `CLRD` (R93): four atomic slot writes in an open order, other agents' events possibly between them. -/
def execClrd (s : State) : Result := fromHost s (advanceClear [0, 1, 2, 3] s)

/-- `SETC(ch, position)` (R94): one slot, `ch` stored as given; `position > 3` is refused and nothing is
written (R143). -/
def execSetc (ch position : Byte) (s : State) : Result :=
  match slotOf position with
  | some i => fromHost s (writeSlot i ch s)
  | none => .refused (.positionOutOfRange position)

end Sys2Proof.Machine
end

