-- ==== Sys2Proof/Machine/Keypad.lean ====
section
/-! DEFINITION. The keypad side (41_keypad.md): `TICKK`, `INITK`. `sym` is the result of the tick's scan;
the key is active when it is not `NONE` (R112). -/

namespace Sys2Proof.Machine

/-- State IDLE (R114). -/
def tickIdle (sym : Option Byte) (s : State) : State :=
  match sym with
  | none => s
  | some _ => setKst .pressPending s

/-- State PRESS_PENDING (R115). -/
def tickPressPending (sym : Option Byte) (s : State) : State :=
  match sym with
  | none => setKst .idle s
  | some k => setKst .pressedWaitRelease (publish k s)

/-- State PRESSED_WAIT_RELEASE (R116). -/
def tickPressedWaitRelease (sym : Option Byte) (s : State) : State :=
  match sym with
  | none => setKst .releasePending s
  | some _ => s

/-- State RELEASE_PENDING (R117). -/
def tickReleasePending (sym : Option Byte) (s : State) : State :=
  match sym with
  | none => setKst .idle s
  | some _ => setKst .pressedWaitRelease s

/-- One transition of the debounce engine and the reschedule (R113). -/
def debounceTick (sym : Option Byte) (s : State) : State :=
  rescheduleKeypad
    (match s.kst with
     | .idle => tickIdle sym s
     | .pressPending => tickPressPending sym s
     | .pressedWaitRelease => tickPressedWaitRelease sym s
     | .releasePending => tickReleasePending sym s)

/-- `TICKK(e)` (R113): refused while the keypad engine is not armed (R148), otherwise always completes
(R124). -/
def execTickk (e : BitVec 16) (s : State) : Result :=
  if s.karm then .next (inHandler (debounceTick (scan s.tables e)) s) else .refused .keypadUnarmed

/-- The keypad side's initial state (R118, R32). -/
def initKeypad (s : State) : State := rescheduleKeypad (armKeypad (emptyQueue (setKst .idle s)))

/-- `INITK` (R118), one atomic step (D21). -/
def execInitk (s : State) : Result := fromHost s (initKeypad s)

end Sys2Proof.Machine
end

