-- ==== Sys2Proof/Machine/Queue.lean ====
section
/-! DEFINITION. The consumer operations of the key event queue (42_key_queue.md): `POLL`, `READK`. -/

namespace Sys2Proof.Machine

/-- `POLL` (R132): return `KQ` and clear it in one atomic step; `NOKEY` when nothing is pending. -/
def execPoll (s : State) : Result := fromHost s (drain s)

/-- `READK` (R133): drain at once when a key is pending; otherwise the host holds, and the step function
ends the hold when `KQ != NOKEY` (Machine/Events.lean). -/
def execReadk (s : State) : Result := fromHost s (if keyPending s then drain s else hold s)

end Sys2Proof.Machine
end

