-- ==== Sys2Proof/Machine/Reset.lean ====
section
/-! DEFINITION. Device reset (70_reset_and_hazards.md): `RESET`. -/

namespace Sys2Proof.Machine

/-- Both engines disarmed, no tick pending, every other element any value; the host's operation in
progress is abandoned (R170). -/
def resetBlock (s : State) : State :=
  release { drawUnspecified s with darm := false, karm := false, dpend := false, kpend := false }

/-- `RESET` (R170): always enabled, an act of the platform. -/
def execReset (s : State) : Result := .next (resetBlock s)

end Sys2Proof.Machine
end

