-- ==== Sys2Proof/Syntax.lean ====
section
/-! DEFINITION. The nine operations of the block, one constructor per row of spec/opcode_table.json (R73). -/

namespace Sys2Proof

/-- The operations and events of R73, with their operands as R74 and R75 carry them. -/
inductive Instr where
  /-- `RESET`, device reset (R170). -/
  | reset
  /-- `INITD`, `initDisplayHardware()` (R92). -/
  | initd
  /-- `CLRD`, `clearDisplay()` (R93). -/
  | clrd
  /-- `SETC(ch, position)`, `setCharDisplay(ch, position)` (R94); the position is carried in 8 bits (R71). -/
  | setc (ch position : Byte)
  /-- `TICKD`, one display-refresh tick (R91). -/
  | tickd
  /-- `INITK`, `initKeypadHardware()` (R118). -/
  | initk
  /-- `POLL`, `pollKey()` (R132). -/
  | poll
  /-- `READK`, `readKeyBlocking()` (R133). -/
  | readk
  /-- `TICKK(e)`, one keypad-debounce tick with the environment's echo vector (R113, R75). -/
  | tickk (e : BitVec 16)
  deriving DecidableEq, Repr

/-- Who issues an operation (R4 and the agent column of R73). -/
inductive Agent where
  | platform
  | host
  | displayTimer
  | keypadTimer
  deriving DecidableEq, Repr

end Sys2Proof
end

