-- ==== Sys2Proof/Machine/Dispatch.lean ====
section
/-! DEFINITION. One arm per operation, each one direct call of its meaning. -/

namespace Sys2Proof.Machine

/-- The meaning of one operation. -/
def exec (i : Instr) (s : State) : Host.Outcome State Fault Refusal :=
  match i with
  | .reset => Sys2Proof.Machine.execReset s
  | .initd => Sys2Proof.Machine.execInitd s
  | .clrd => Sys2Proof.Machine.execClrd s
  | .setc ch position => Sys2Proof.Machine.execSetc ch position s
  | .tickd => Sys2Proof.Machine.execTickd s
  | .initk => Sys2Proof.Machine.execInitk s
  | .poll => Sys2Proof.Machine.execPoll s
  | .readk => Sys2Proof.Machine.execReadk s
  | .tickk e => Sys2Proof.Machine.execTickk e s

end Sys2Proof.Machine
end

