-- ==== Sys2Proof/WellFormed.lean ====
section
/-! DEFINITION. Well-formed instructions: the one operand check of the spec is the position of `SETC`
(R71, R74); every other operand value is legal (R75, R77). -/

namespace Sys2Proof

/-- The operand check of the spec: `position <= 3` (R74). All other instructions have none. -/
def Instr.wf : Instr → Bool
  | .reset => true
  | .initd => true
  | .clrd => true
  | .setc _ position => decide (position ≤ 3)
  | .tickd => true
  | .initk => true
  | .poll => true
  | .readk => true
  | .tickk _ => true

end Sys2Proof
end

