-- ==== Sys2Proof/Decode.lean ====
section
/-! DEFINITION. The decoder and the encoder of the 24-bit command word (R72 to R77). The word is a number,
not a byte sequence (R45). -/

namespace Sys2Proof

/-- Why a word names no operation. -/
inductive DecodeError where
  /-- `op` is not in the table of R73 (R76). -/
  | reservedOpcode (op : Byte)
  /-- A format N word with a nonzero operand field (R77). -/
  | reservedOperand (w : Word24)
  deriving DecidableEq, Repr

/-- `op = w[23:16]` (R72). -/
def opField (w : Word24) : Byte := w.extractLsb' 16 8

/-- `a = w[15:8]` (R72). -/
def aField (w : Word24) : Byte := w.extractLsb' 8 8

/-- `b = w[7:0]` (R72). -/
def bField (w : Word24) : Byte := w.extractLsb' 0 8

/-- The echo vector `e = (a, b) = w[15:0]` (R75). -/
def eField (w : Word24) : BitVec 16 := w.extractLsb' 0 16

/-- A format N operation: both operand fields must be zero (R77). -/
def formatN (i : Instr) (w : Word24) : Except DecodeError Instr :=
  if aField w = 0 ∧ bField w = 0 then .ok i else .error (.reservedOperand w)

/-- The decoder: read `op`, look it up in R73, check format N's fields, else take the fields as operands. -/
def decodeWord (w : Word24) : Except DecodeError Instr :=
  match (opField w).toNat with
  | 0x00 => formatN .reset w
  | 0x01 => formatN .initd w
  | 0x02 => formatN .clrd w
  | 0x03 => .ok (.setc (aField w) (bField w))
  | 0x04 => formatN .tickd w
  | 0x10 => formatN .initk w
  | 0x11 => formatN .poll w
  | 0x12 => formatN .readk w
  | 0x14 => .ok (.tickk (eField w))
  | _ => .error (.reservedOpcode (opField w))

/-- A word from its three fields (R72). -/
def packWord (op a b : Byte) : Word24 := op ++ a ++ b

/-- The encoder, from the opcode map of R73 and the formats of R72, R74, R75. -/
def encodeWord : Instr → Word24
  | .reset => packWord 0x00 0 0
  | .initd => packWord 0x01 0 0
  | .clrd => packWord 0x02 0 0
  | .setc ch position => packWord 0x03 ch position
  | .tickd => packWord 0x04 0 0
  | .initk => packWord 0x10 0 0
  | .poll => packWord 0x11 0 0
  | .readk => packWord 0x12 0 0
  | .tickk e => packWord 0x14 (e.extractLsb' 8 8) (e.extractLsb' 0 8)

/-- One row of spec/opcode_table.json. -/
structure OpcodeRow where
  mnemonic : String
  pattern : Word24
  mask : Word24
  deriving DecidableEq, Repr

/-- The rows of spec/opcode_table.json, in its order: pattern is the row's "match". -/
def opcodeTable : List OpcodeRow :=
  [⟨"RESET", 0x000000, 0xFFFFFF⟩, ⟨"INITD", 0x010000, 0xFFFFFF⟩, ⟨"CLRD", 0x020000, 0xFFFFFF⟩,
   ⟨"SETC", 0x030000, 0xFF0000⟩, ⟨"TICKD", 0x040000, 0xFFFFFF⟩, ⟨"INITK", 0x100000, 0xFFFFFF⟩,
   ⟨"POLL", 0x110000, 0xFFFFFF⟩, ⟨"READK", 0x120000, 0xFFFFFF⟩, ⟨"TICKK", 0x140000, 0xFF0000⟩]

/-- A word belongs to a row when it has the row's fixed bits. -/
def OpcodeRow.covers (r : OpcodeRow) (w : Word24) : Bool := w &&& r.mask == r.pattern

/-- The mnemonic of an operation (R73, R78). -/
def Instr.mnemonic : Instr → String
  | .reset => "RESET"
  | .initd => "INITD"
  | .clrd => "CLRD"
  | .setc _ _ => "SETC"
  | .tickd => "TICKD"
  | .initk => "INITK"
  | .poll => "POLL"
  | .readk => "READK"
  | .tickk _ => "TICKK"

/-- The agent column of R73. -/
def Instr.agent : Instr → Agent
  | .reset => .platform
  | .initd => .host
  | .clrd => .host
  | .setc _ _ => .host
  | .tickd => .displayTimer
  | .initk => .host
  | .poll => .host
  | .readk => .host
  | .tickk _ => .keypadTimer

/-- What the decoder reads from `nbits` bits numbered as the opcode table numbers them (bit 0 the least
significant; bits above `nbits` are 0). -/
def decodeTableWord (nbits w : Nat) : Option Instr :=
  match decodeWord (BitVec.ofNat 24 (w % 2 ^ nbits)) with
  | .ok i => some i
  | .error _ => none

end Sys2Proof
end

