-- ==== Sys2Proof/Machine/Events.lean ====
section
/-! DEFINITION. How the next atomic step is chosen (R49): the events of the trace, the host's operation in
progress, and the interleaving choices. Log entries 3, 4, 5, 6. -/

namespace Sys2Proof.Machine

/-- The event's word is one of the host's six operations, issued from the main line (R153, R189). -/
def hostIssued (e : Event) : Bool :=
  match e.ctx, decodeWord e.word with
  | .normal, .ok i => i.agent == .host
  | _, _ => false

/-- The event is a device reset. -/
def isResetEvent (e : Event) : Bool :=
  match decodeWord e.word with
  | .ok .reset => true
  | _ => false

/-- Split a trace at its first event that is not the host's: what the host cannot issue yet, that event, and
what comes after it. While the host is inside an operation "it issues no other operation" (R133). -/
def splitOther : List Event → Option (List Event × Event × List Event)
  | [] => none
  | e :: es =>
    if hostIssued e then
      match splitOther es with
      | none => none
      | some (before, x, after) => some (e :: before, x, after)
    else some ([], e, es)

/-- The next event that can happen, and the trace without it. A free host takes the events in order; while
it is inside an operation its own later events wait, and a `RESET` drops them: "the host starts again from
its beginning" (R170, log entry 5). -/
def nextEvent (s : State) : Option (Event × List Event) :=
  match s.host with
  | .free =>
    match s.trace with
    | [] => none
    | e :: es => some (e, es)
  | .clearing _ | .holding =>
    match splitOther s.trace with
    | none => none
    | some (before, e, after) => some (e, if isResetEvent e then after else before ++ after)

/-- The host has an atomic step of its own to do: the next slot write of `CLRD`, or the drain that ends a
`READK` whose hold is lifted (R49, R93, R133). -/
def hostReady (s : State) : Bool :=
  match s.host with
  | .free => false
  | .clearing _ => true
  | .holding => keyPending s

/-- The next choice is to let another agent's event come first. -/
def wantsYield (s : State) : Bool :=
  match s.sched with
  | .yield :: _ => true
  | _ => false

/-- Drop a leading `yield`, which has been served. -/
def dropYield (s : State) : State := if wantsYield s then { s with sched := s.sched.tail } else s

/-- The host's own step, when `hostReady`. -/
def hostStep (s : State) : State :=
  match s.host with
  | .free => s
  | .clearing pending => advanceClear pending s
  | .holding => release (drain s)

/-- An event arrives: its time passes, it runs in the context it was issued in (R152, R155), and the choices
it brings come after those still left (R49; log entry 4). -/
def arrive (e : Event) (rest : List Event) (s : State) : State :=
  passTime e.elapsed { s with trace := rest, ctx := e.ctx, sched := s.sched ++ e.choices }

/-- The refusal of a word that names no operation (R76, R77, R144). -/
def refusalOf : DecodeError → Refusal
  | .reservedOpcode op => .reservedOpcode op
  | .reservedOperand w => .reservedOperand w

/-- What the next atomic step is. -/
inductive Move where
  /-- The step is complete: the host's own step, or nothing to do. -/
  | done (s : State)
  /-- The step is refused: a reserved word. -/
  | refuse (r : Refusal)
  /-- The step runs an operation. -/
  | run (i : Instr) (s : State)
  deriving DecidableEq, Repr

/-- Run the event that was picked, from a state with no value returned yet. -/
def moveEvent (e : Event) (rest : List Event) (s : State) : Move :=
  match decodeWord e.word with
  | .ok i => .run i (arrive e rest s)
  | .error err => .refuse (refusalOf err)

/-- The next atomic step (R49). The host's own step comes first unless a `yield` lets another agent's event
come before it; a holding host whose `KQ` is empty has no step (R133); with nothing to do the block stays
as it is (R171). -/
def nextMove (s : State) : Move :=
  let s := beginStep s
  match nextEvent s with
  | none => .done (if hostReady s then hostStep (dropYield s) else s)
  | some (e, rest) =>
    if hostReady s then
      if wantsYield s then moveEvent e rest (dropYield s) else .done (hostStep s)
    else moveEvent e rest s

/-- After an operation control is back in normal context (R150). -/
def finish (r : Result) : Result :=
  match r with
  | .next s => .next { s with ctx := .normal }
  | .fault f => .fault f
  | .refused f => .refused f

/-- The state whose very next event is this word, from its own agent, with no time passing and no choices. -/
def placeWord (w : Word24) (s : State) : State :=
  { s with host := .free, trace := ⟨0, .normal, w, []⟩ :: s.trace }

end Sys2Proof.Machine
end

