-- ==== Sys2Proof/Machine/Step.lean ====
section
/-! DEFINITION. One atomic step of the block and its agents (R49), and where the next event is placed. -/

namespace Sys2Proof.Machine

/-- One step: the next atomic step of `nextMove`. -/
def step (s : State) : Host.Outcome State Fault Refusal :=
  match nextMove s with
  | .done t => .next t
  | .refuse r => .refused r
  | .run i t => finish (exec i t)

/-- The instruction word placed where `step` takes its next event from (log entry 3). -/
def State.withFetchWord (s : State) (nbits w : Nat) : State :=
  placeWord (BitVec.ofNat 24 (w % 2 ^ nbits)) s

end Sys2Proof.Machine
end

