-- ==== Sys2Proof/Machine/Ports.lean ====
section
/-! DEFINITION. What the display ports show (60_exceptions.md R160, 10_state.md R13). -/

namespace Sys2Proof.Machine

/-- The digit-enable pins of a logical value under a polarity: `EN`, or its 4-bit complement (R13, R64). -/
def pinsOf (activeLow : Bool) (en : BitVec 4) : BitVec 4 := if activeLow then ~~~en else en

/-- `DIGPINS[3:0]` of this board (R13, R160). -/
def digPins (s : State) : BitVec 4 := pinsOf Config.digActiveLow s.en

/-- The segment port: 8 lines carrying `SEG` (R160). -/
def segPort (s : State) : Byte := s.seg

/-- The physical digit of a position, counted from the right. DEDUCED for positions 1 to 3: the wiring runs
in one direction (R10, 00_scope.md section 5); no rule reads it (log entry 21). -/
def digitFromRight (i : Pos) : Pos := if Config.pos0Rightmost then i else 3 - i

end Sys2Proof.Machine
end

