-- ==== Sys2Proof/Safety.lean ====
section
/-! DEFINITION. The terms claims are stated in: sequences of operations, the invariants of R33, the sides of
the block (R22), and fairness (R157). -/

namespace Sys2Proof.Safety

open Sys2Proof Sys2Proof.Machine

/-- Perform operations one after another, stopping at the first refusal (R144). -/
def runInstrs : List Instr → State → Result
  | [], s => .next s
  | i :: is, s =>
    match exec i s with
    | .next t => runInstrs is t
    | .fault f => .fault f
    | .refused r => .refused r

/-- No position, or exactly one, is active (R33(a)). -/
def atMostOneActive (en : BitVec 4) : Prop := en = 0 ∨ ∃ i : Pos, en = onehot4 i

/-- R33 (a), (b), (c): what holds of the display side while `DARM = 1`, that is, from `INITD` on and as long
as no `RESET` occurs (R16). -/
def DisplayInv (s : State) : Prop :=
  s.darm = true →
    atMostOneActive s.en ∧ s.seg.getLsbD 7 = false ∧ (s.seg = 0x00 ∨ ∃ c : Byte, s.seg = encode s.tables c)

/-- R33 (d): what holds of the queue while `KARM = 1`, that is, from `INITK` on and as long as no `RESET`
occurs (R16). -/
def KeypadInv (s : State) : Prop := s.karm = true → s.kq = noKey ∨ s.kq ∈ keySymbols

/-- Both states hold the same display side: `DB`, `CUR`, `SEG`, `EN`, `DARM` and the display's timing. -/
def SameDisplay (s t : State) : Prop :=
  t.db = s.db ∧ t.cur = s.cur ∧ t.seg = s.seg ∧ t.en = s.en ∧ t.darm = s.darm ∧ t.dcmp = s.dcmp ∧
    t.dpend = s.dpend

/-- Both states hold the same keypad side: `KST`, `KQ`, `KARM` and the keypad's timing. -/
def SameKeypad (s t : State) : Prop :=
  t.kst = s.kst ∧ t.kq = s.kq ∧ t.karm = s.karm ∧ t.kcmp = s.kcmp ∧ t.kpend = s.kpend

/-- Both states hold the same of what neither side owns: the counter, the context, the tables and the model's
own fields but what the host is doing and the byte returned to it. -/
def SameRest (s t : State) : Prop :=
  t.tcnt = s.tcnt ∧ t.ctx = s.ctx ∧ t.tables = s.tables ∧ t.trace = s.trace ∧ t.draws = s.draws

/-- The operation cannot write slot `p` of `DB`, disarm the display or reset its cursor. -/
def leavesSlot (p : Pos) (i : Instr) : Prop :=
  i ≠ .reset ∧ i ≠ .initd ∧ i ≠ .clrd ∧ ∀ ch position, i = .setc ch position → slotOf position ≠ some p

/-- How many of the operations are display ticks. -/
def displayTicks (is : List Instr) : Nat := is.countP (fun i => i == .tickd)

/-- An infinite execution: at moment `n` the event `ev n`, if any, is presented and one step is taken. Each
event brings interleaving choices of its own, so every interleaving of R49 is some execution. -/
def Execution (ev : Nat → Option Event) (σ : Nat → State) : Prop :=
  ∀ n, step { σ n with trace := (σ n).trace ++ (ev n).toList } = .next (σ (n + 1))

/-- An operation runs at moment `n` of an execution. -/
def runsAt (ev : Nat → Option Event) (σ : Nat → State) (n : Nat) (p : Instr → Bool) : Prop :=
  ∃ i t, nextMove { σ n with trace := (σ n).trace ++ (ev n).toList } = .run i t ∧ p i = true

/-- The fairness assumption of R157: an engine armed from some point on ticks infinitely often. It is an
assumption on the environment, not a property of `step` (log entry 19). -/
def Fair (ev : Nat → Option Event) (σ : Nat → State) : Prop :=
  ((∃ n, ∀ m, n ≤ m → (σ m).darm = true) →
    ∀ n, ∃ m, n ≤ m ∧ runsAt ev σ m (fun i => i == .tickd)) ∧
  ((∃ n, ∀ m, n ≤ m → (σ m).karm = true) →
    ∀ n, ∃ m, n ≤ m ∧ runsAt ev σ m (fun i => i.agent == .keypadTimer))

end Sys2Proof.Safety
end

