-- ==== Sys2Proof/Certificates/Slice0/Obligations.lean ====
section
/-! DEFINITION. The statements for the provers. Each docstring names the rule of spec/ it formalises. A
statement of an operation's result is one equation `exec i s = .next { s with … }`: it says that the
operation completes, what it writes, and that everything else (its frame) is as before. -/

open Sys2Proof Sys2Proof.Machine Sys2Proof.Safety

/-! ## Command words -/

/-- Decoding an encoded operation gives it back, for every operand value: no bit of an encoding is dropped
(R72 to R75). Basis: the command word is the spec's own notation, D25. -/
def Obligations.DecodeEncodeRoundTrip : Prop :=
  ∀ i : Instr, decodeWord (encodeWord i) = .ok i

/-- Each word has one meaning: a word that decodes is the word of what it decodes to (R72 to R77). Basis: the
command word is the spec's own notation, D25 and D26. -/
def Obligations.EncodeDecodeRoundTrip : Prop :=
  ∀ (w : Word24) (i : Instr), decodeWord w = .ok i → encodeWord i = w

/-- The decoder accepts exactly the words that a row of spec/opcode_table.json covers, and reads the row's
operation (R73). Basis: the command word is the spec's own notation, D25 and D26. -/
def Obligations.DecoderAgreesWithOpcodeTable : Prop :=
  ∀ w : Word24,
    (∀ i, decodeWord w = .ok i → ∃ r ∈ opcodeTable, r.mnemonic = i.mnemonic ∧ r.covers w = true) ∧
    (∀ r ∈ opcodeTable, r.covers w = true → ∃ i, decodeWord w = .ok i ∧ i.mnemonic = r.mnemonic)

/-- The ten words of R78's table decode to the operations written beside them. Basis: the command word is the
spec's own notation, D25. -/
def Obligations.SpecWordsDecode : Prop :=
  decodeWord 0x000000 = .ok .reset ∧ decodeWord 0x010000 = .ok .initd ∧ decodeWord 0x020000 = .ok .clrd ∧
  decodeWord 0x033502 = .ok (.setc 0x35 2) ∧ decodeWord 0x040000 = .ok .tickd ∧
  decodeWord 0x100000 = .ok .initk ∧ decodeWord 0x110000 = .ok .poll ∧ decodeWord 0x120000 = .ok .readk ∧
  decodeWord 0x140001 = .ok (.tickk 0x0001) ∧ decodeWord 0x140000 = .ok (.tickk 0x0000)

/-- A word whose `op` is not in the table of R73 names no operation: the decoder says so and the machine
refuses it (R76). Basis: reserved words are the spec's own decision D26. -/
def Obligations.ReservedOpcodeRefused : Prop :=
  ∀ (s : State) (e : Event) (es : List Event), s.host = .free → s.trace = e :: es →
    (opField e.word ∉ [0x00, 0x01, 0x02, 0x03, 0x04, 0x10, 0x11, 0x12, 0x14]) →
    decodeWord e.word = .error (.reservedOpcode (opField e.word)) ∧
    step s = .refused (.reservedOpcode (opField e.word))

/-- Reserved operand values: a format N word with a nonzero field is refused like a reserved opcode; in format
C `b > 3` is no reserved encoding but refused by the operation; in format E every value is legal (R77). Basis:
the spec's own decisions D26 and D11. -/
def Obligations.ReservedOperandsRefused : Prop :=
  ∀ (s : State) (e : Event) (es : List Event), s.host = .free → s.trace = e :: es →
    (opField e.word ∈ [0x00, 0x01, 0x02, 0x04, 0x10, 0x11, 0x12] → (aField e.word ≠ 0 ∨ bField e.word ≠ 0) →
      step s = .refused (.reservedOperand e.word)) ∧
    (opField e.word = 0x03 →
      decodeWord e.word = .ok (.setc (aField e.word) (bField e.word)) ∧
      (¬ bField e.word ≤ 3 → step s = .refused (.positionOutOfRange (bField e.word)))) ∧
    (opField e.word = 0x14 → decodeWord e.word = .ok (.tickk (eField e.word)))

/-! ## The step -/

/-- When the host is free and the next event's word decodes to `i`, the step is `exec i` on the state in which
the event has arrived (its time passed, its context entered, its choices added, no byte returned yet), and
control is back in normal context afterwards (R49, R150). Basis: the list of events is the model's choice, log
entry 3, the choices an event brings are log entry 4, and the time it brings is log entry 11. -/
def Obligations.StepRunsDecodedInstruction : Prop :=
  ∀ (s : State) (e : Event) (es : List Event) (i : Instr), s.host = .free → s.trace = e :: es →
    decodeWord e.word = .ok i → step s = finish (exec i (arrive e es { s with ret := none }))

/-- A word placed by `withFetchWord` is what the very next step runs, from any state (log entry 3). Basis: the
model's choice, log entry 3. -/
def Obligations.PlacedWordRunsNext : Prop :=
  ∀ (s : State) (i : Instr),
    step (s.withFetchWord 24 (encodeWord i).toNat) =
      finish (exec i { s with host := .free, ctx := .normal, ret := none })

/-- With no event and no operation of the host in progress nothing happens (R171; the model's choice of log
entry 3 that this is a step). -/
def Obligations.NothingHappensWithoutEvents : Prop :=
  ∀ s : State, s.host = .free → s.trace = [] → step s = .next { s with ret := none }

/-- While the host is inside `CLRD` or `READK` the next event is never one of the host's own: it issues no
other operation until it is done (R133, R49). Basis: that the host's later events wait is log entry 5
(DEDUCED). -/
def Obligations.BusyHostIssuesNothing : Prop :=
  ∀ (s : State) (e : Event) (rest : List Event), s.host ≠ .free → nextEvent s = some (e, rest) →
    hostIssued e = false

/-- Between two atomic steps of the host another agent's event may come: a `yield` among the choices lets it
(R49, R93). Basis: the list of choices is the model's, log entry 4. -/
def Obligations.YieldLetsAnEventCome : Prop :=
  ∀ (s : State) (e : Event) (rest : List Event) (i : Instr), hostReady s = true → wantsYield s = true →
    nextEvent s = some (e, rest) → decodeWord e.word = .ok i →
    step s = finish (exec i (arrive e rest { s with ret := none, sched := s.sched.tail }))

/-- A `RESET` while the host is in the middle of a `CLRD` (that has let it come) or holds in a `READK`
abandons that operation: the host is free again and what it had not issued is dropped (R170 (a); the drop is
log entry 5). Basis: that it drops the events the host had not issued is the model's choice, log entry 5. -/
def Obligations.ResetAbandonsHostOperation : Prop :=
  ∀ (s : State) (e : Event) (before after : List Event),
    ((s.host = .holding ∧ (s.kq = noKey ∨ wantsYield s = true)) ∨
      (∃ pending, s.host = .clearing pending ∧ wantsYield s = true)) →
    s.trace = before ++ e :: after → (∀ x ∈ before, hostIssued x = true) →
    decodeWord e.word = .ok .reset →
    ∃ t, step s = .next t ∧ t.host = .free ∧ t.trace = after ∧ t.darm = false ∧ t.karm = false ∧ t.ret = none

/-! ## Reset and initialisation -/

/-- `RESET` (R170, R30): disarms both engines, leaves no tick pending, ends the host's operation, and
completes from every state. Every other state element is unspecified and nothing is said of it; the tables and
the model's bookkeeping are as before. Basis: the spec's own decision D22; the unspecified elements are log
entry 2, the tables log entry 23. -/
def Obligations.ResetDisarmsEverything : Prop :=
  ∀ s : State, ∃ t, exec .reset s = .next t ∧
    t.darm = false ∧ t.karm = false ∧ t.dpend = false ∧ t.kpend = false ∧ t.host = .free ∧
    t.tables = s.tables ∧ t.ctx = s.ctx ∧ t.ret = s.ret ∧ t.trace = s.trace ∧ t.sched = s.sched

/-- The values R30 gives for the state after reset: no engine armed, no tick pending. Basis: the spec's own
decision D22. -/
def Obligations.PowerOnBits : Prop :=
  State.reset.darm = false ∧ State.reset.karm = false ∧ State.reset.dpend = false ∧
  State.reset.kpend = false

/-- `INITD` (R92, R31): the display engine's initial state, the engine armed, the first deadline; nothing of
the keypad side. Basis: the spec's own decisions D3, D9 and D13, and D23 for the deadline; log entries 9 and
14. -/
def Obligations.InitdEstablishesDisplay : Prop :=
  ∀ s : State, s.ctx = .normal →
    exec .initd s = .next { s with
      cur := 0, db := ⟨0x20, 0x20, 0x20, 0x20⟩, seg := 0x00, en := 0b0000, darm := true,
      dcmp := s.tcnt + BitVec.ofNat Config.tcntW Config.tDisp, dpend := false }

/-- `INITK` (R118, R32): IDLE, an empty queue, the engine armed, the first deadline; nothing of the display
side. Basis: the spec's own decisions D21, D17 and D23; log entries 9 and 14. -/
def Obligations.InitkEstablishesKeypad : Prop :=
  ∀ s : State, s.ctx = .normal →
    exec .initk s = .next { s with
      kst := .idle, kq := 0x00, karm := true,
      kcmp := s.tcnt + BitVec.ofNat Config.tcntW Config.tKey, kpend := false }

/-- The boot sequence `RESET`, `INITD`, `INITK`, issued in normal context, reaches the state every test starts
from, whatever the state before and whatever `RESET` leaves unspecified, the counter included; the two init
operations may come in either order (R172). Basis: the spec's own decisions D3, D9, D13 and D21, D17 for the
value of NOKEY (log entry 9), and D23 for the deadlines. -/
def Obligations.BootReachesInitialState : Prop :=
  ∀ s : State, s.ctx = .normal → ∀ l : List Instr, l = [.initd, .initk] ∨ l = [.initk, .initd] →
    ∃ t, runInstrs (.reset :: l) s = .next t ∧
      t.db = ⟨0x20, 0x20, 0x20, 0x20⟩ ∧ t.cur = 0 ∧ t.seg = 0x00 ∧ t.en = 0b0000 ∧ t.darm = true ∧
      t.kst = .idle ∧ t.kq = 0x00 ∧ t.karm = true ∧ t.dpend = false ∧ t.kpend = false ∧
      t.dcmp = t.tcnt + BitVec.ofNat Config.tcntW Config.tDisp ∧
      t.kcmp = t.tcnt + BitVec.ofNat Config.tcntW Config.tKey

/-! ## The display side -/

/-- `TICKD` while armed (R91): drive position `CUR` and only it, show the pattern of its slot, advance the
cursor modulo 4, reschedule; `DB` and the keypad side are not written. Basis: the one atomic step is the
spec's own decision D10 (log entry 13), bit i for position i is D7, the deadline is D23, and the clearing of
DPEND is log entry 12 (DEDUCED). -/
def Obligations.TickdDrivesAndAdvances : Prop :=
  ∀ s : State, s.darm = true →
    exec .tickd s = .next { s with
      en := if s.cur = 0 then 0b0001 else if s.cur = 1 then 0b0010 else if s.cur = 2 then 0b0100 else 0b1000,
      seg := encode s.tables (s.db.get s.cur),
      cur := BitVec.ofNat 2 ((s.cur.toNat + 1) % 4),
      dcmp := s.tcnt + BitVec.ofNat Config.tcntW Config.tDisp, dpend := false }

/-- While an engine is not armed its tick has no step: it is refused (R148, R16). Basis: the spec's own
decisions D22 and D32. -/
def Obligations.UnarmedTicksRefused : Prop :=
  ∀ s : State,
    (s.darm = false → exec .tickd s = .refused .displayUnarmed) ∧
    (s.karm = false → ∀ e, exec (.tickk e) s = .refused .keypadUnarmed)

/-- `SETC(ch, position)` (R94): with `position <= 3` the one slot holds `ch` as given and nothing else
changes; with `position > 3` it is refused. Basis: the refusal is the spec's own decision D11. -/
def Obligations.SetcStoresOrIsRefused : Prop :=
  ∀ (s : State) (ch position : Byte),
    (s.ctx = .normal → position ≤ 3 →
      exec (.setc ch position) s = .next { s with
        db := { d0 := if position = 0 then ch else s.db.d0, d1 := if position = 1 then ch else s.db.d1,
                d2 := if position = 2 then ch else s.db.d2, d3 := if position = 3 then ch else s.db.d3 } }) ∧
    (¬ position ≤ 3 → exec (.setc ch position) s = .refused (.positionOutOfRange position))

/-- A `CLRD` that nothing interrupts, in whatever order its slots are written (R93): every slot blank, the
operation over, and nothing else of the block changed. Basis: the spec's own decisions D12 and D3; log entry
4. -/
def Obligations.UndividedClrdBlanksBuffer : Prop :=
  ∀ s : State, s.ctx = .normal → .yield ∉ s.sched →
    ∃ cs, exec .clrd s = .next { s with db := ⟨0x20, 0x20, 0x20, 0x20⟩, host := .free, sched := cs }

/-- A `CLRD` under every choice of order and of interruption (R93): it completes or is left unfinished with
some slots still to be written; a slot is blank unless it is one of those, which are as before; and nothing
else of the block changes. Basis: the spec's own decisions D12 and D3; log entry 4. -/
def Obligations.ClrdWritesBlanksInAnyOrder : Prop :=
  ∀ s : State, s.ctx = .normal → ∃ b o cs pending,
    exec .clrd s = .next { s with db := b, host := o, sched := cs } ∧
    (o = if pending = [] then .free else .clearing pending) ∧
    ∀ i : Pos, b.get i = if i ∈ pending then s.db.get i else 0x20

/-- `CLRD` can be interrupted after any of its writes, taken in any order (R49, R93, U8): with the choices
`slot i` for each `i` of `l` and then `yield`, exactly the slots of `l` are blank, and the others are still to
be written. The choices may come with the `CLRD` event itself: its step then leaves the host inside the
`CLRD`, wanting another agent's event first, so that no state but the events is needed to divide it. Basis:
the spec's own decision D12; log entry 4. -/
def Obligations.ClrdCanBeSplitAnywhere : Prop :=
  (∀ (s : State) (l : List Pos) (cs : List Choice) (k : Pos), s.ctx = .normal → k ∉ l →
    s.sched = l.map Choice.slot ++ .yield :: cs →
    ∃ b pending, exec .clrd s = .next { s with db := b, host := .clearing pending, sched := .yield :: cs } ∧
      (∀ i : Pos, i ∈ pending ↔ i ∉ l) ∧ ∀ i : Pos, b.get i = if i ∈ l then 0x20 else s.db.get i) ∧
  (∀ (s : State) (e : Event) (es : List Event) (l : List Pos) (cs : List Choice) (k : Pos),
    s.host = .free → s.trace = e :: es → e.ctx = .normal → decodeWord e.word = .ok .clrd → s.sched = [] →
    k ∉ l → e.choices = l.map Choice.slot ++ .yield :: cs →
    ∃ t pending, step s = .next t ∧ t.host = .clearing pending ∧ (∀ i : Pos, i ∈ pending ↔ i ∉ l) ∧
      (∀ i : Pos, t.db.get i = if i ∈ l then 0x20 else s.db.get i) ∧
      t.trace = es ∧ hostReady t = true ∧ wantsYield t = true)

/-- The rest of an interrupted `CLRD` (R93): the host's next step writes blanks into slots still to be
written, finishing unless it is interrupted again, and changes nothing else. Basis: the spec's own decision
D12; log entry 4. -/
def Obligations.ClrdContinues : Prop :=
  ∀ (s : State) (pending : List Pos), s.host = .clearing pending → wantsYield s = false →
    ∃ b o cs left, step s = .next { s with db := b, host := o, sched := cs, ret := none } ∧
      (o = if left = [] then .free else .clearing left) ∧ (∀ i ∈ left, i ∈ pending) ∧
      (.yield ∉ s.sched → left = []) ∧
      ∀ i : Pos, b.get i = if i ∈ pending ∧ i ∉ left then 0x20 else s.db.get i

/-- In every `SEGROM` the spec admits, every character outside the supported alphabet maps to the blank
pattern `0x00` (R61). Basis: the numeric character codes are log entry 9 (PRESUMED, D2); the supported
alphabet is read with all of a to f in it (D6, log entry 7), and a table may leave any of b to f blank as
well. -/
def Obligations.UnsupportedCharactersAreBlank : Prop :=
  ∀ (t : Tables) (c : Byte), t.wf = true → c ∉ supportedAlphabet → encode t c = 0x00

/-- In every `SEGROM` the spec admits, bit 7 of every pattern the block produces is 0 (R63). Basis: the spec's
own decision D4; log entry 22; which tables the spec admits is log entry 23. -/
def Obligations.PatternBitSevenIsZero : Prop :=
  ∀ (t : Tables) (c : Byte), t.wf = true → (encode t c).getLsbD 7 = false

/-- In every `SEGROM` the spec admits, the patterns the source prints and the blank of space (R62, R90); and
the default instance is one of them. Basis: the pattern of space is the spec's own decision D3, the character
codes are log entry 9, and the default instance is log entry 7. -/
def Obligations.SourcePatterns : Prop :=
  (∀ t : Tables, t.wf = true → encode t 0x35 = 0x6D ∧ encode t 0x61 = 0x77 ∧ encode t 0x20 = 0x00) ∧
  defaultTables.wf = true

/-- The cursor cycles: four display ticks in a row drive `CUR`, `CUR + 1`, `CUR + 2`, `CUR + 3` (mod 4) in
that order and leave the cursor where it was; and no host operation but `INITD` disturbs the cycle (R95).
Basis: the formal reading is one the spec marks as its own, "Formally [derived: from rule R91]". -/
def Obligations.CursorCycles : Prop :=
  (∀ s : State, s.darm = true → ∃ t1 t2 t3 t4,
    exec .tickd s = .next t1 ∧ exec .tickd t1 = .next t2 ∧ exec .tickd t2 = .next t3 ∧
    exec .tickd t3 = .next t4 ∧ t1.en = onehot4 s.cur ∧ t2.en = onehot4 (s.cur + 1) ∧
    t3.en = onehot4 (s.cur + 2) ∧ t4.en = onehot4 (s.cur + 3) ∧ t4.cur = s.cur) ∧
  (∀ (i : Instr) (s t : State), i.agent = .host → i ≠ .initd → exec i s = .next t → t.cur = s.cur)

/-- After every `TICKD` exactly one bit of `EN` is set; and no operation but `RESET` (which leaves `EN`
unspecified) writes an `EN` with two or more bits set (R96). Basis: that no operation ever writes two is a
sentence the spec marks "[derived: from rules R91 and R92]". -/
def Obligations.OnePositionActive : Prop :=
  (∀ s t : State, exec .tickd s = .next t → ∃ k, k < 4 ∧ ∀ j, t.en.getLsbD j = decide (j = k)) ∧
  (∀ (i : Instr) (s t : State), i ≠ .reset → exec i s = .next t →
    t.en = s.en ∨ t.en = 0 ∨ ∃ k, k < 4 ∧ ∀ j, t.en.getLsbD j = decide (j = k))

/-- Eventual consistency within one refresh cycle (R51): once `SETC(ch, p)` has completed, and through any
sequence of operations that leaves slot `p` and the cursor's cycle alone, a display tick drives position `p`
exactly when the ticks before it count `p - CUR` modulo 4, and then it shows `encode(ch)`. Basis: the precise
form is one the spec marks "[derived: from `40_display.md` rules R91 and R95]". -/
def Obligations.WrittenCharacterAppears : Prop :=
  ∀ (s u t : State) (ch position : Byte) (p : Pos) (l : List Instr),
    s.darm = true → slotOf position = some p → exec (.setc ch position) s = .next u →
    (∀ i ∈ l, leavesSlot p i) → runInstrs (l ++ [.tickd]) u = .next t →
    (t.en = onehot4 p ↔ BitVec.ofNat 2 (displayTicks l) = p - s.cur) ∧
    (t.en = onehot4 p → t.seg = encode s.tables ch)

/-- The digit-enable pins of every state are `EN`, or its complement where the board is active-low (R13); so
they show the one-hot value or its complement after a display tick, and none or all of the lines after `INITD`
(R64). Basis: the spec's own decision D7, and D9 for EN after INITD. -/
def Obligations.DigitPinsFollowPolarity : Prop :=
  ∀ s : State,
    (digPins s = if Config.digActiveLow then ~~~s.en else s.en) ∧
    (∀ t, exec .tickd s = .next t →
      digPins t = if Config.digActiveLow then ~~~(onehot4 s.cur) else onehot4 s.cur) ∧
    (∀ t, exec .initd s = .next t → digPins t = if Config.digActiveLow then 0b1111 else 0b0000)

/-! ## The keypad side -/

/-- Every `KEYTAB` the spec admits has sixteen rows with pairwise distinct codes, its symbols are exactly the
sixteen key symbols, each once, and one row is `(0xEE, '1')` (R66): no two rows share a code or a symbol. The
default instance is one of them. Basis: the numeric symbol codes are log entry 9, and the default instance is
log entry 8. -/
def Obligations.KeytabIsBijective : Prop :=
  (∀ t : Tables, t.wf = true →
    t.keytab.length = 16 ∧ ⟨0xEE, 0x31⟩ ∈ t.keytab ∧
    (∀ r ∈ t.keytab, ∀ q ∈ t.keytab, r.code = q.code ∨ r.sym = q.sym → r = q) ∧
    (∀ k : Byte, k ∈ keySymbols ↔ ∃ r ∈ t.keytab, r.sym = k)) ∧
  defaultTables.wf = true

/-- `decode` is an exact match (R110): in every `KEYTAB` the spec admits it gives `SYM[i]` on `CODE[i]` and
`NONE` on every other pattern. -/
def Obligations.KeyDecodeIsExactMatch : Prop :=
  ∀ (t : Tables) (bits : Byte), t.wf = true →
    (∀ r ∈ t.keytab, decode t r.code = some r.sym) ∧
    ((∀ r ∈ t.keytab, r.code ≠ bits) → decode t bits = none) ∧
    (∀ k : Byte, decode t bits = some k ↔ ⟨bits, k⟩ ∈ t.keytab)

/-- In every `KEYTAB` the spec admits, the scan takes the lowest table index whose code echoes; it finds
nothing exactly when no code echoes (R111, R112). Basis: the spec's own decisions D15 and D16. -/
def Obligations.ScanTakesLowestIndex : Prop :=
  ∀ (t : Tables) (e : BitVec 16), t.wf = true →
    (scan t e = none ↔ e = 0) ∧
    (∀ k : Byte, scan t e = some k ↔
      ∃ i r, t.keytab[i]? = some r ∧ e.getLsbD i = true ∧ (∀ j, j < i → e.getLsbD j = false) ∧ r.sym = k)

/-- The echo vector carries everything the scanner can learn from the environment's answers: its bit `i` is 1
exactly when `M(CODE[i]) == CODE[i]`, and scanning it is scanning `M` (R75, R111). Basis: a rule the spec
marks "[derived: from `41_keypad.md` rule R111]". -/
def Obligations.EchoVectorCarriesTheScan : Prop :=
  ∀ (t : Tables) (answer : Byte → Byte), t.wf = true →
    (∀ i r, t.keytab[i]? = some r → (echoOf t answer).getLsbD i = decide (answer r.code = r.code)) ∧
    scan t (echoOf t answer) = scanAnswer t answer

/-- `TICKK` in state IDLE (R114): to PRESS_PENDING when a key is active, else no change; nothing is published.
Basis: that a key is active when the echo vector is not 0 is the spec's own decision D15, the deadline is D23,
and the clearing of KPEND is log entry 12 (DEDUCED). -/
def Obligations.TickkInIdle : Prop :=
  ∀ (s : State) (e : BitVec 16), s.tables.wf = true → s.karm = true → s.kst = .idle →
    exec (.tickk e) s = .next { s with
      kst := if e = 0 then .idle else .pressPending,
      kcmp := s.tcnt + BitVec.ofNat Config.tcntW Config.tKey, kpend := false }

/-- `TICKK` in state PRESS_PENDING (R115): no key, back to IDLE; an active key, to PRESSED_WAIT_RELEASE,
publishing this tick's symbol if the queue is empty and nothing if it is not. Basis: the spec's own decisions
D34 and D15, D23 for the deadline, and log entry 12 (DEDUCED) for the clearing of KPEND. -/
def Obligations.TickkInPressPending : Prop :=
  ∀ (s : State) (e : BitVec 16), s.tables.wf = true → s.karm = true → s.kst = .pressPending →
    (e = 0 → exec (.tickk e) s = .next { s with
      kst := .idle, kcmp := s.tcnt + BitVec.ofNat Config.tcntW Config.tKey, kpend := false }) ∧
    (e ≠ 0 → ∃ k, scan s.tables e = some k ∧ exec (.tickk e) s = .next { s with
      kst := .pressedWaitRelease, kq := if s.kq = noKey then k else s.kq,
      kcmp := s.tcnt + BitVec.ofNat Config.tcntW Config.tKey, kpend := false })

/-- `TICKK` in state PRESSED_WAIT_RELEASE (R116): to RELEASE_PENDING when no key is active, else no change;
nothing is published, so there is no auto-repeat. Basis: that a key is active when the echo vector is not 0 is
the spec's own decision D15, the deadline is D23, and the clearing of KPEND is log entry 12 (DEDUCED). -/
def Obligations.TickkInPressedWaitRelease : Prop :=
  ∀ (s : State) (e : BitVec 16), s.tables.wf = true → s.karm = true → s.kst = .pressedWaitRelease →
    exec (.tickk e) s = .next { s with
      kst := if e = 0 then .releasePending else .pressedWaitRelease,
      kcmp := s.tcnt + BitVec.ofNat Config.tcntW Config.tKey, kpend := false }

/-- `TICKK` in state RELEASE_PENDING (R117): to IDLE when no key is active, back to PRESSED_WAIT_RELEASE when
one is, whichever it is; nothing is published. Basis: that a key is active when the echo vector is not 0 is
the spec's own decision D15, the deadline is D23, and the clearing of KPEND is log entry 12 (DEDUCED). -/
def Obligations.TickkInReleasePending : Prop :=
  ∀ (s : State) (e : BitVec 16), s.tables.wf = true → s.karm = true → s.kst = .releasePending →
    exec (.tickk e) s = .next { s with
      kst := if e = 0 then .idle else .pressedWaitRelease,
      kcmp := s.tcnt + BitVec.ofNat Config.tcntW Config.tKey, kpend := false }

/-- One press and release publishes exactly one event (R119): from IDLE with an empty queue, the key of row
`i` held for `n >= 2` ticks and released for `m >= 2` ticks leaves its symbol in the queue and the engine in
IDLE; the event is there at the second held tick; and if the host drains it then, none of the other ticks
publishes another. Basis: that the event comes at the second active tick is a sentence the spec marks
"[derived: from rules R114 to R117]"; that a key is active when some code echoes is D15. -/
def Obligations.OnePressOneEvent : Prop :=
  ∀ (s : State) (i n m : Nat) (r : KeyRow), s.tables.wf = true → s.karm = true → s.kst = .idle →
    s.kq = noKey → s.ctx = .normal → s.tables.keytab[i]? = some r →
    (∃ t, runInstrs (List.replicate (n + 2) (.tickk (echoOnly i)) ++ List.replicate (m + 2) (.tickk 0)) s
        = .next t ∧ t.kst = .idle ∧ t.kq = r.sym) ∧
    (∃ t, runInstrs [.tickk (echoOnly i), .tickk (echoOnly i)] s = .next t ∧ t.kq = r.sym) ∧
    (∃ t, runInstrs ([.tickk (echoOnly i), .tickk (echoOnly i), .poll] ++
        List.replicate n (.tickk (echoOnly i)) ++ List.replicate (m + 2) (.tickk 0)) s = .next t ∧
      t.kst = .idle ∧ t.kq = noKey ∧ t.ret = some r.sym)

/-- A press seen for one tick only publishes nothing and reverts to IDLE (R120). Basis: the spec's own
decision D19, and D15 for what an active key is. -/
def Obligations.OneTickPressIsNoise : Prop :=
  ∀ (s : State) (e : BitVec 16), s.tables.wf = true → s.karm = true → s.kst = .idle → e ≠ 0 →
    ∃ t, runInstrs [.tickk e, .tickk 0] s = .next t ∧ t.kst = .idle ∧ t.kq = s.kq

/-- A press whose confirming tick finds the queue full is dropped for good (R121): after it, and through any
operations, drains and bounces on release included, as long as the engine does not reach IDLE and no `RESET`
occurs, nothing is published. The step behind it: from PRESSED_WAIT_RELEASE or RELEASE_PENDING, no step but a
`RESET` publishes, and the state becomes only IDLE or one of those two. Basis: the spec's own decision D20,
and D15 for what an active key is. -/
def Obligations.DroppedPressStaysDropped : Prop :=
  (∀ s t : State, s.kst = .pressedWaitRelease ∨ s.kst = .releasePending → step s = .next t →
    ((t.kst = .idle ∨ t.kst = .pressedWaitRelease ∨ t.kst = .releasePending) ∧
      (t.kq = s.kq ∨ t.kq = noKey)) ∨
    ∃ e rest, nextEvent s = some (e, rest) ∧ decodeWord e.word = .ok .reset) ∧
  (∀ (s t : State) (e : BitVec 16) (l : List Instr),
    s.tables.wf = true → s.kst = .pressPending → s.kq ≠ noKey → e ≠ 0 → .reset ∉ l →
    (∀ l' u, l' <+: l → runInstrs (.tickk e :: l') s = .next u → u.kst ≠ .idle) →
    runInstrs (.tickk e :: l) s = .next t →
    (t.kst = .pressedWaitRelease ∨ t.kst = .releasePending) ∧ (t.kq = s.kq ∨ t.kq = noKey))

/-- The symbol published is that of the confirming tick's scan, whichever key started the press (R122). Basis:
the spec's own decision D33, and D15 for what an active key is. -/
def Obligations.ConfirmingTickGivesSymbol : Prop :=
  ∀ (s : State) (first second : BitVec 16), s.tables.wf = true → s.karm = true → s.kst = .idle →
    s.kq = noKey → first ≠ 0 → second ≠ 0 →
    ∃ t k, runInstrs [.tickk first, .tickk second] s = .next t ∧ scan s.tables second = some k ∧ t.kq = k

/-! ## The queue and its consumers -/

/-- `POLL` (R132): return the pending byte and clear the queue in one step; nothing else changes. -/
def Obligations.PollReadsAndClears : Prop :=
  ∀ s : State, s.ctx = .normal → exec .poll s = .next { s with ret := some s.kq, kq := noKey }

/-- The drain is not idempotent: a second `POLL` returns `NOKEY` (R48 (a)). Basis: the value of NOKEY is log
entry 9. -/
def Obligations.SecondPollReturnsNoKey : Prop :=
  ∀ s : State, s.ctx = .normal →
    runInstrs [.poll, .poll] s = .next { s with ret := some noKey, kq := noKey }

/-- `READK` (R133): with a key pending it returns it at once and clears the queue; with none it returns
nothing and the host holds. Basis: the hold form is the spec's own decision D27; log entry 6. -/
def Obligations.ReadkDrainsOrHolds : Prop :=
  ∀ s : State, s.ctx = .normal →
    (s.kq ≠ noKey → exec .readk s = .next { s with ret := some s.kq, kq := noKey }) ∧
    (s.kq = noKey → exec .readk s = .next { s with host := .holding })

/-- While the host holds and the queue is empty no step returns a byte or ends the hold, but for a `RESET`;
with no event at all the hold is a hang (R133). Basis: the spec's own decision D27; log entry 6. -/
def Obligations.HoldReturnsNothing : Prop :=
  ∀ s t : State, s.host = .holding → s.kq = noKey → step s = .next t →
    t.ret = none ∧
    (t.host = .holding ∨ ∃ e rest, nextEvent s = some (e, rest) ∧ decodeWord e.word = .ok .reset) ∧
    (nextEvent s = none → t = { s with ret := none })

/-- Once the queue holds a symbol the hold ends with the atomic drain: the byte is returned, the queue is
empty, the host is free, and nothing else changes (R133). Basis: the spec's own decision D27; log entries 4
and 6. -/
def Obligations.HoldEndsWithTheDrain : Prop :=
  ∀ s : State, s.host = .holding → s.kq ≠ noKey → wantsYield s = false →
    step s = .next { s with ret := some s.kq, kq := noKey, host := .free }

/-- The six host operations belong to normal context: issued from within a tick each is refused (R153). Basis:
the spec's own decision D31; log entry 15. -/
def Obligations.HostOperationsRefusedInTick : Prop :=
  ∀ s : State, s.ctx = .interrupt →
    exec .initd s = .refused .hostOpInTick ∧ exec .clrd s = .refused .hostOpInTick ∧
    (∀ ch position, position ≤ 3 → exec (.setc ch position) s = .refused .hostOpInTick) ∧
    exec .initk s = .refused .hostOpInTick ∧ exec .poll s = .refused .hostOpInTick ∧
    exec .readk s = .refused .hostOpInTick

/-- Publishing happens in exactly one place (R130, R33 (e)): a step that changes the queue empties it, or runs
a `TICKK` in PRESS_PENDING with an active key and an empty queue and writes that scan's symbol, or runs a
`RESET`. Basis: A RESET, which leaves the queue at any value, is the one other way its content can change to a
byte. -/
def Obligations.OnlyConfirmingTickPublishes : Prop :=
  ∀ s t : State, step s = .next t → t.kq ≠ s.kq →
    t.kq = noKey ∨
    (∃ e rest v, nextEvent s = some (e, rest) ∧ decodeWord e.word = .ok (.tickk v) ∧ s.karm = true ∧
      s.kst = .pressPending ∧ s.kq = noKey ∧ scan s.tables v = some t.kq) ∨
    (∃ e rest, nextEvent s = some (e, rest) ∧ decodeWord e.word = .ok .reset)

/-- A symbol leaves the queue only through a consumer or a re-initialisation (R33 (e), R131): a step that
empties a queue holding a byte runs `POLL`, `READK`, `INITK` or `RESET`, or is the drain that ends a hold; and
no step but a `RESET` replaces a pending byte by another. Basis: the list of operations is a sentence the spec
marks "[derived: from rules R31, R32, ...]". -/
def Obligations.PendingSymbolIsNeverOverwritten : Prop :=
  ∀ s t : State, step s = .next t → s.kq ≠ noKey → t.kq ≠ s.kq →
    (t.kq = noKey ∧ s.host = .holding ∧ t.ret = some s.kq) ∨
    (∃ e rest i, nextEvent s = some (e, rest) ∧ decodeWord e.word = .ok i ∧
      ((i = .poll ∨ i = .readk) ∧ t.kq = noKey ∧ t.ret = some s.kq ∨ i = .initk ∧ t.kq = noKey ∨ i = .reset))

/-! ## The timers -/

/-- Time passing (R155, R17): the counter counts up and wraps at its width; an armed source becomes pending
exactly when the counter takes the value of its deadline on the way (the model's reading, log entry 11).
Basis: the spec's own decision D23 and the model's reading, log entry 11. -/
def Obligations.DeadlineReachedMakesPending : Prop :=
  ∀ (n : Nat) (s : State),
    (passTime n s).tcnt = s.tcnt + BitVec.ofNat Config.tcntW n ∧
    ((passTime n s).dpend = true ↔ s.dpend = true ∨ (s.darm = true ∧
      ∃ k, 1 ≤ k ∧ k ≤ n ∧ s.tcnt + BitVec.ofNat Config.tcntW k = s.dcmp)) ∧
    ((passTime n s).kpend = true ↔ s.kpend = true ∨ (s.karm = true ∧
      ∃ k, 1 ≤ k ∧ k ≤ n ∧ s.tcnt + BitVec.ofNat Config.tcntW k = s.kcmp))

/-! ## The whole block -/

/-- The access matrix (R22), the writes: which operations may change which element. Beside the matrix: only
`RESET` may change the counter, and no operation changes the tables, the context or the events to come. Basis:
the matrix is one the spec marks "[derived: from rules R10 to R17 ...]"; that RESET may change the counter is
log entry 2, and that no operation changes the tables log entry 23. -/
def Obligations.OwnershipOfState : Prop :=
  ∀ (i : Instr) (s t : State), exec i s = .next t →
    (t.db = s.db ∨ i = .reset ∨ i = .initd ∨ i = .clrd ∨ ∃ ch position, i = .setc ch position) ∧
    (t.cur = s.cur ∧ t.seg = s.seg ∧ t.en = s.en ∨ i = .reset ∨ i = .initd ∨ i = .tickd) ∧
    (t.kst = s.kst ∨ i = .reset ∨ i = .initk ∨ ∃ e, i = .tickk e) ∧
    (t.kq = s.kq ∨ i = .reset ∨ i = .initk ∨ i = .poll ∨ i = .readk ∨ ∃ e, i = .tickk e) ∧
    (t.darm = s.darm ∨ i = .reset ∧ t.darm = false ∨ i = .initd ∧ t.darm = true) ∧
    (t.karm = s.karm ∨ i = .reset ∧ t.karm = false ∨ i = .initk ∧ t.karm = true) ∧
    (t.tcnt = s.tcnt ∨ i = .reset) ∧ t.tables = s.tables ∧ t.ctx = s.ctx ∧ t.trace = s.trace ∧
    (t.ret = s.ret ∨ i = .poll ∨ i = .readk)

/-- There is no cancel operation: a step that disarms an engine runs a `RESET` (R16, R148). Basis: the arm
bits are the spec's own decision D22. -/
def Obligations.OnlyResetDisarms : Prop :=
  ∀ s t : State, step s = .next t →
    (s.darm = true ∧ t.darm = false ∨ s.karm = true ∧ t.karm = false) →
    ∃ e rest, nextEvent s = some (e, rest) ∧ decodeWord e.word = .ok .reset

/-- `TICKD` and `TICKK` commute, every display-side host operation commutes with `TICKK`, and every
keypad-side host operation with `TICKD`: either order gives the same state and outputs (R56). Basis: the rule
is one the spec marks "[derived: from `10_state.md` rule R22]"; two unarmed ticks, refused in either order,
are left out. -/
def Obligations.TwoSidesCommute : Prop :=
  ∀ (s : State) (e : BitVec 16),
    (s.darm = true ∨ s.karm = true →
      runInstrs [.tickd, .tickk e] s = runInstrs [.tickk e, .tickd] s) ∧
    (s.karm = true → ∀ i : Instr, i = .initd ∨ i = .clrd ∨ (∃ ch position, i = .setc ch position) →
      runInstrs [i, .tickk e] s = runInstrs [.tickk e, i] s) ∧
    (s.darm = true → ∀ i : Instr, i = .initk ∨ i = .poll ∨ i = .readk →
      runInstrs [i, .tickd] s = runInstrs [.tickd, i] s)

/-- The two sides share no state (R1, R123): of two states that agree on one side, and on what neither side
owns, an operation makes two that agree on that side, whatever the other side held. Basis: a formal reading of
"share no state"; the choices of CLRD are log entry 4, and for RESET the two results agree because both draw
the same free values, log entry 2. -/
def Obligations.SidesDoNotInterfere : Prop :=
  ∀ (i : Instr) (s s' t t' : State), SameRest s s' → exec i s = .next t → exec i s' = .next t' →
    (SameKeypad s s' → SameKeypad t t') ∧
    (SameDisplay s s' → s'.sched = s.sched → SameDisplay t t')

/-- R33 (a), (b), (c) as an invariant every step keeps, for every `SEGROM` the spec admits: while the display
is initialised at most one position is active, `SEG[7] = 0`, and `SEG` is blank or a value of `SEGROM`. Basis:
the rule is one the spec marks "[derived: from rules R31, R32, ...]". -/
def Obligations.DisplayInvariantKept : Prop :=
  ∀ s t : State, s.tables.wf = true → DisplayInv s → step s = .next t → DisplayInv t

/-- R33 (d) as an invariant every step keeps, for every `KEYTAB` the spec admits: while the keypad is
initialised `KQ` is `NOKEY` or one of the sixteen key symbols. Basis: the rule is one the spec marks
"[derived: from rules R31, R32, ...]" -/
def Obligations.KeypadInvariantKept : Prop :=
  ∀ s t : State, s.tables.wf = true → KeypadInv s → step s = .next t → KeypadInv t

/-- Both invariants hold at reset, and the tables there are as the spec asks (R33, R61 to R63, R66). Basis:
R33 is marked "[derived: ...]" and speaks of initialised sides; at reset neither is; the tables there are log
entries 7 and 8. -/
def Obligations.ResetMeetsInvariants : Prop :=
  DisplayInv State.reset ∧ KeypadInv State.reset ∧ State.reset.tables.wf = true

/-- The configuration is one record that no transition writes (R6, R18): no step changes the tables, so what
the spec asks of them, once true, stays true. Basis: that the tables stand in a field of State is the model's
choice, log entry 23. -/
def Obligations.ConfigurationKept : Prop :=
  ∀ s t : State, step s = .next t → t.tables = s.tables ∧ (s.tables.wf = true → t.tables.wf = true)
end

