-- ==== Sys2Proof/Laws/Decode.lean ====
section
/-! SUPPORT. The fields of a packed word and the rows of the opcode table (R72, R73). -/

namespace Sys2Proof

/-- Which bit of a packed word is which field's (R72). -/
theorem packWord_getLsbD (op a b : Byte) (i : Nat) :
    (packWord op a b).getLsbD i =
      if i < 8 then b.getLsbD i else if i < 16 then a.getLsbD (i - 8) else op.getLsbD (i - 16) := by
  show (op ++ a ++ b : BitVec (8 + 8 + 8)).getLsbD i = _
  rw [BitVec.getLsbD_append, BitVec.getLsbD_append]
  by_cases h : i < 8
  · simp [h]
  · by_cases h' : i < 16
    · have : i - 8 < 8 := by omega
      simp [h, h', this]
    · have : ¬ i - 8 < 8 := by omega
      simp only [h, h', this, if_false]
      congr 1

@[simp] theorem opField_packWord (op a b : Byte) : opField (packWord op a b) = op := by
  apply BitVec.eq_of_getLsbD_eq
  intro i hi
  have h1 : ¬ 16 + i < 8 := by omega
  have h2 : ¬ 16 + i < 16 := by omega
  simp [opField, packWord_getLsbD, hi, h1]

@[simp] theorem aField_packWord (op a b : Byte) : aField (packWord op a b) = a := by
  apply BitVec.eq_of_getLsbD_eq
  intro i hi
  have h1 : 8 + i < 16 := by omega
  simp [aField, packWord_getLsbD, hi, h1]

@[simp] theorem bField_packWord (op a b : Byte) : bField (packWord op a b) = b := by
  apply BitVec.eq_of_getLsbD_eq
  intro i hi
  simp [bField, packWord_getLsbD, hi]

/-- No word has the fixed bits of two rows of the opcode table: two rows differ in a bit both fix. -/
theorem opcodeTable_rows_disjoint :
    opcodeTable.Pairwise (fun r q => (r.pattern ^^^ q.pattern) &&& (r.mask &&& q.mask) ≠ 0) := by
  decide

end Sys2Proof
end

