-- ==== Sys2Proof/Laws/State.lean ====
section
/-! SUPPORT. One lemma per field per update of the named operations of Machine/Ops.lean: no later proof
unfolds a record update. -/

namespace Sys2Proof.Machine

@[simp] theorem writeSlot_db (i : Pos) (c : Byte) (s : State) : (writeSlot i c s).db = s.db.set i c := rfl
@[simp] theorem writeSlot_cur (i : Pos) (c : Byte) (s : State) : (writeSlot i c s).cur = s.cur := rfl
@[simp] theorem writeSlot_seg (i : Pos) (c : Byte) (s : State) : (writeSlot i c s).seg = s.seg := rfl
@[simp] theorem writeSlot_en (i : Pos) (c : Byte) (s : State) : (writeSlot i c s).en = s.en := rfl
@[simp] theorem writeSlot_kst (i : Pos) (c : Byte) (s : State) : (writeSlot i c s).kst = s.kst := rfl
@[simp] theorem writeSlot_kq (i : Pos) (c : Byte) (s : State) : (writeSlot i c s).kq = s.kq := rfl
@[simp] theorem writeSlot_darm (i : Pos) (c : Byte) (s : State) : (writeSlot i c s).darm = s.darm := rfl
@[simp] theorem writeSlot_karm (i : Pos) (c : Byte) (s : State) : (writeSlot i c s).karm = s.karm := rfl
@[simp] theorem writeSlot_tcnt (i : Pos) (c : Byte) (s : State) : (writeSlot i c s).tcnt = s.tcnt := rfl
@[simp] theorem writeSlot_dcmp (i : Pos) (c : Byte) (s : State) : (writeSlot i c s).dcmp = s.dcmp := rfl
@[simp] theorem writeSlot_kcmp (i : Pos) (c : Byte) (s : State) : (writeSlot i c s).kcmp = s.kcmp := rfl
@[simp] theorem writeSlot_dpend (i : Pos) (c : Byte) (s : State) : (writeSlot i c s).dpend = s.dpend := rfl
@[simp] theorem writeSlot_kpend (i : Pos) (c : Byte) (s : State) : (writeSlot i c s).kpend = s.kpend := rfl
@[simp] theorem writeSlot_ctx (i : Pos) (c : Byte) (s : State) : (writeSlot i c s).ctx = s.ctx := rfl
@[simp] theorem writeSlot_tables (i : Pos) (c : Byte) (s : State) : (writeSlot i c s).tables = s.tables := rfl
@[simp] theorem writeSlot_host (i : Pos) (c : Byte) (s : State) : (writeSlot i c s).host = s.host := rfl
@[simp] theorem writeSlot_ret (i : Pos) (c : Byte) (s : State) : (writeSlot i c s).ret = s.ret := rfl
@[simp] theorem writeSlot_trace (i : Pos) (c : Byte) (s : State) : (writeSlot i c s).trace = s.trace := rfl
@[simp] theorem writeSlot_sched (i : Pos) (c : Byte) (s : State) : (writeSlot i c s).sched = s.sched := rfl
@[simp] theorem writeSlot_draws (i : Pos) (c : Byte) (s : State) : (writeSlot i c s).draws = s.draws := rfl

@[simp] theorem driveEnable_db (i : Pos) (s : State) : (driveEnable i s).db = s.db := rfl
@[simp] theorem driveEnable_cur (i : Pos) (s : State) : (driveEnable i s).cur = s.cur := rfl
@[simp] theorem driveEnable_seg (i : Pos) (s : State) : (driveEnable i s).seg = s.seg := rfl
@[simp] theorem driveEnable_en (i : Pos) (s : State) : (driveEnable i s).en = onehot4 i := rfl
@[simp] theorem driveEnable_kst (i : Pos) (s : State) : (driveEnable i s).kst = s.kst := rfl
@[simp] theorem driveEnable_kq (i : Pos) (s : State) : (driveEnable i s).kq = s.kq := rfl
@[simp] theorem driveEnable_darm (i : Pos) (s : State) : (driveEnable i s).darm = s.darm := rfl
@[simp] theorem driveEnable_karm (i : Pos) (s : State) : (driveEnable i s).karm = s.karm := rfl
@[simp] theorem driveEnable_tcnt (i : Pos) (s : State) : (driveEnable i s).tcnt = s.tcnt := rfl
@[simp] theorem driveEnable_dcmp (i : Pos) (s : State) : (driveEnable i s).dcmp = s.dcmp := rfl
@[simp] theorem driveEnable_kcmp (i : Pos) (s : State) : (driveEnable i s).kcmp = s.kcmp := rfl
@[simp] theorem driveEnable_dpend (i : Pos) (s : State) : (driveEnable i s).dpend = s.dpend := rfl
@[simp] theorem driveEnable_kpend (i : Pos) (s : State) : (driveEnable i s).kpend = s.kpend := rfl
@[simp] theorem driveEnable_ctx (i : Pos) (s : State) : (driveEnable i s).ctx = s.ctx := rfl
@[simp] theorem driveEnable_tables (i : Pos) (s : State) : (driveEnable i s).tables = s.tables := rfl
@[simp] theorem driveEnable_host (i : Pos) (s : State) : (driveEnable i s).host = s.host := rfl
@[simp] theorem driveEnable_ret (i : Pos) (s : State) : (driveEnable i s).ret = s.ret := rfl
@[simp] theorem driveEnable_trace (i : Pos) (s : State) : (driveEnable i s).trace = s.trace := rfl
@[simp] theorem driveEnable_sched (i : Pos) (s : State) : (driveEnable i s).sched = s.sched := rfl
@[simp] theorem driveEnable_draws (i : Pos) (s : State) : (driveEnable i s).draws = s.draws := rfl

@[simp] theorem drivePattern_db (c : Byte) (s : State) : (drivePattern c s).db = s.db := rfl
@[simp] theorem drivePattern_cur (c : Byte) (s : State) : (drivePattern c s).cur = s.cur := rfl
@[simp] theorem drivePattern_seg (c : Byte) (s : State) : (drivePattern c s).seg = c := rfl
@[simp] theorem drivePattern_en (c : Byte) (s : State) : (drivePattern c s).en = s.en := rfl
@[simp] theorem drivePattern_kst (c : Byte) (s : State) : (drivePattern c s).kst = s.kst := rfl
@[simp] theorem drivePattern_kq (c : Byte) (s : State) : (drivePattern c s).kq = s.kq := rfl
@[simp] theorem drivePattern_darm (c : Byte) (s : State) : (drivePattern c s).darm = s.darm := rfl
@[simp] theorem drivePattern_karm (c : Byte) (s : State) : (drivePattern c s).karm = s.karm := rfl
@[simp] theorem drivePattern_tcnt (c : Byte) (s : State) : (drivePattern c s).tcnt = s.tcnt := rfl
@[simp] theorem drivePattern_dcmp (c : Byte) (s : State) : (drivePattern c s).dcmp = s.dcmp := rfl
@[simp] theorem drivePattern_kcmp (c : Byte) (s : State) : (drivePattern c s).kcmp = s.kcmp := rfl
@[simp] theorem drivePattern_dpend (c : Byte) (s : State) : (drivePattern c s).dpend = s.dpend := rfl
@[simp] theorem drivePattern_kpend (c : Byte) (s : State) : (drivePattern c s).kpend = s.kpend := rfl
@[simp] theorem drivePattern_ctx (c : Byte) (s : State) : (drivePattern c s).ctx = s.ctx := rfl
@[simp] theorem drivePattern_tables (c : Byte) (s : State) : (drivePattern c s).tables = s.tables := rfl
@[simp] theorem drivePattern_host (c : Byte) (s : State) : (drivePattern c s).host = s.host := rfl
@[simp] theorem drivePattern_ret (c : Byte) (s : State) : (drivePattern c s).ret = s.ret := rfl
@[simp] theorem drivePattern_trace (c : Byte) (s : State) : (drivePattern c s).trace = s.trace := rfl
@[simp] theorem drivePattern_sched (c : Byte) (s : State) : (drivePattern c s).sched = s.sched := rfl
@[simp] theorem drivePattern_draws (c : Byte) (s : State) : (drivePattern c s).draws = s.draws := rfl

@[simp] theorem advanceCursor_db (s : State) : (advanceCursor s).db = s.db := rfl
@[simp] theorem advanceCursor_cur (s : State) : (advanceCursor s).cur = s.cur + 1 := rfl
@[simp] theorem advanceCursor_seg (s : State) : (advanceCursor s).seg = s.seg := rfl
@[simp] theorem advanceCursor_en (s : State) : (advanceCursor s).en = s.en := rfl
@[simp] theorem advanceCursor_kst (s : State) : (advanceCursor s).kst = s.kst := rfl
@[simp] theorem advanceCursor_kq (s : State) : (advanceCursor s).kq = s.kq := rfl
@[simp] theorem advanceCursor_darm (s : State) : (advanceCursor s).darm = s.darm := rfl
@[simp] theorem advanceCursor_karm (s : State) : (advanceCursor s).karm = s.karm := rfl
@[simp] theorem advanceCursor_tcnt (s : State) : (advanceCursor s).tcnt = s.tcnt := rfl
@[simp] theorem advanceCursor_dcmp (s : State) : (advanceCursor s).dcmp = s.dcmp := rfl
@[simp] theorem advanceCursor_kcmp (s : State) : (advanceCursor s).kcmp = s.kcmp := rfl
@[simp] theorem advanceCursor_dpend (s : State) : (advanceCursor s).dpend = s.dpend := rfl
@[simp] theorem advanceCursor_kpend (s : State) : (advanceCursor s).kpend = s.kpend := rfl
@[simp] theorem advanceCursor_ctx (s : State) : (advanceCursor s).ctx = s.ctx := rfl
@[simp] theorem advanceCursor_tables (s : State) : (advanceCursor s).tables = s.tables := rfl
@[simp] theorem advanceCursor_host (s : State) : (advanceCursor s).host = s.host := rfl
@[simp] theorem advanceCursor_ret (s : State) : (advanceCursor s).ret = s.ret := rfl
@[simp] theorem advanceCursor_trace (s : State) : (advanceCursor s).trace = s.trace := rfl
@[simp] theorem advanceCursor_sched (s : State) : (advanceCursor s).sched = s.sched := rfl
@[simp] theorem advanceCursor_draws (s : State) : (advanceCursor s).draws = s.draws := rfl

@[simp] theorem rescheduleDisplay_db (s : State) : (rescheduleDisplay s).db = s.db := rfl
@[simp] theorem rescheduleDisplay_cur (s : State) : (rescheduleDisplay s).cur = s.cur := rfl
@[simp] theorem rescheduleDisplay_seg (s : State) : (rescheduleDisplay s).seg = s.seg := rfl
@[simp] theorem rescheduleDisplay_en (s : State) : (rescheduleDisplay s).en = s.en := rfl
@[simp] theorem rescheduleDisplay_kst (s : State) : (rescheduleDisplay s).kst = s.kst := rfl
@[simp] theorem rescheduleDisplay_kq (s : State) : (rescheduleDisplay s).kq = s.kq := rfl
@[simp] theorem rescheduleDisplay_darm (s : State) : (rescheduleDisplay s).darm = s.darm := rfl
@[simp] theorem rescheduleDisplay_karm (s : State) : (rescheduleDisplay s).karm = s.karm := rfl
@[simp] theorem rescheduleDisplay_tcnt (s : State) : (rescheduleDisplay s).tcnt = s.tcnt := rfl
@[simp] theorem rescheduleDisplay_dcmp (s : State) : (rescheduleDisplay s).dcmp = s.tcnt + BitVec.ofNat Config.tcntW Config.tDisp := rfl
@[simp] theorem rescheduleDisplay_kcmp (s : State) : (rescheduleDisplay s).kcmp = s.kcmp := rfl
@[simp] theorem rescheduleDisplay_dpend (s : State) : (rescheduleDisplay s).dpend = false := rfl
@[simp] theorem rescheduleDisplay_kpend (s : State) : (rescheduleDisplay s).kpend = s.kpend := rfl
@[simp] theorem rescheduleDisplay_ctx (s : State) : (rescheduleDisplay s).ctx = s.ctx := rfl
@[simp] theorem rescheduleDisplay_tables (s : State) : (rescheduleDisplay s).tables = s.tables := rfl
@[simp] theorem rescheduleDisplay_host (s : State) : (rescheduleDisplay s).host = s.host := rfl
@[simp] theorem rescheduleDisplay_ret (s : State) : (rescheduleDisplay s).ret = s.ret := rfl
@[simp] theorem rescheduleDisplay_trace (s : State) : (rescheduleDisplay s).trace = s.trace := rfl
@[simp] theorem rescheduleDisplay_sched (s : State) : (rescheduleDisplay s).sched = s.sched := rfl
@[simp] theorem rescheduleDisplay_draws (s : State) : (rescheduleDisplay s).draws = s.draws := rfl

@[simp] theorem rescheduleKeypad_db (s : State) : (rescheduleKeypad s).db = s.db := rfl
@[simp] theorem rescheduleKeypad_cur (s : State) : (rescheduleKeypad s).cur = s.cur := rfl
@[simp] theorem rescheduleKeypad_seg (s : State) : (rescheduleKeypad s).seg = s.seg := rfl
@[simp] theorem rescheduleKeypad_en (s : State) : (rescheduleKeypad s).en = s.en := rfl
@[simp] theorem rescheduleKeypad_kst (s : State) : (rescheduleKeypad s).kst = s.kst := rfl
@[simp] theorem rescheduleKeypad_kq (s : State) : (rescheduleKeypad s).kq = s.kq := rfl
@[simp] theorem rescheduleKeypad_darm (s : State) : (rescheduleKeypad s).darm = s.darm := rfl
@[simp] theorem rescheduleKeypad_karm (s : State) : (rescheduleKeypad s).karm = s.karm := rfl
@[simp] theorem rescheduleKeypad_tcnt (s : State) : (rescheduleKeypad s).tcnt = s.tcnt := rfl
@[simp] theorem rescheduleKeypad_dcmp (s : State) : (rescheduleKeypad s).dcmp = s.dcmp := rfl
@[simp] theorem rescheduleKeypad_kcmp (s : State) : (rescheduleKeypad s).kcmp = s.tcnt + BitVec.ofNat Config.tcntW Config.tKey := rfl
@[simp] theorem rescheduleKeypad_dpend (s : State) : (rescheduleKeypad s).dpend = s.dpend := rfl
@[simp] theorem rescheduleKeypad_kpend (s : State) : (rescheduleKeypad s).kpend = false := rfl
@[simp] theorem rescheduleKeypad_ctx (s : State) : (rescheduleKeypad s).ctx = s.ctx := rfl
@[simp] theorem rescheduleKeypad_tables (s : State) : (rescheduleKeypad s).tables = s.tables := rfl
@[simp] theorem rescheduleKeypad_host (s : State) : (rescheduleKeypad s).host = s.host := rfl
@[simp] theorem rescheduleKeypad_ret (s : State) : (rescheduleKeypad s).ret = s.ret := rfl
@[simp] theorem rescheduleKeypad_trace (s : State) : (rescheduleKeypad s).trace = s.trace := rfl
@[simp] theorem rescheduleKeypad_sched (s : State) : (rescheduleKeypad s).sched = s.sched := rfl
@[simp] theorem rescheduleKeypad_draws (s : State) : (rescheduleKeypad s).draws = s.draws := rfl

@[simp] theorem armDisplay_db (s : State) : (armDisplay s).db = s.db := rfl
@[simp] theorem armDisplay_cur (s : State) : (armDisplay s).cur = s.cur := rfl
@[simp] theorem armDisplay_seg (s : State) : (armDisplay s).seg = s.seg := rfl
@[simp] theorem armDisplay_en (s : State) : (armDisplay s).en = s.en := rfl
@[simp] theorem armDisplay_kst (s : State) : (armDisplay s).kst = s.kst := rfl
@[simp] theorem armDisplay_kq (s : State) : (armDisplay s).kq = s.kq := rfl
@[simp] theorem armDisplay_darm (s : State) : (armDisplay s).darm = true := rfl
@[simp] theorem armDisplay_karm (s : State) : (armDisplay s).karm = s.karm := rfl
@[simp] theorem armDisplay_tcnt (s : State) : (armDisplay s).tcnt = s.tcnt := rfl
@[simp] theorem armDisplay_dcmp (s : State) : (armDisplay s).dcmp = s.dcmp := rfl
@[simp] theorem armDisplay_kcmp (s : State) : (armDisplay s).kcmp = s.kcmp := rfl
@[simp] theorem armDisplay_dpend (s : State) : (armDisplay s).dpend = s.dpend := rfl
@[simp] theorem armDisplay_kpend (s : State) : (armDisplay s).kpend = s.kpend := rfl
@[simp] theorem armDisplay_ctx (s : State) : (armDisplay s).ctx = s.ctx := rfl
@[simp] theorem armDisplay_tables (s : State) : (armDisplay s).tables = s.tables := rfl
@[simp] theorem armDisplay_host (s : State) : (armDisplay s).host = s.host := rfl
@[simp] theorem armDisplay_ret (s : State) : (armDisplay s).ret = s.ret := rfl
@[simp] theorem armDisplay_trace (s : State) : (armDisplay s).trace = s.trace := rfl
@[simp] theorem armDisplay_sched (s : State) : (armDisplay s).sched = s.sched := rfl
@[simp] theorem armDisplay_draws (s : State) : (armDisplay s).draws = s.draws := rfl

@[simp] theorem armKeypad_db (s : State) : (armKeypad s).db = s.db := rfl
@[simp] theorem armKeypad_cur (s : State) : (armKeypad s).cur = s.cur := rfl
@[simp] theorem armKeypad_seg (s : State) : (armKeypad s).seg = s.seg := rfl
@[simp] theorem armKeypad_en (s : State) : (armKeypad s).en = s.en := rfl
@[simp] theorem armKeypad_kst (s : State) : (armKeypad s).kst = s.kst := rfl
@[simp] theorem armKeypad_kq (s : State) : (armKeypad s).kq = s.kq := rfl
@[simp] theorem armKeypad_darm (s : State) : (armKeypad s).darm = s.darm := rfl
@[simp] theorem armKeypad_karm (s : State) : (armKeypad s).karm = true := rfl
@[simp] theorem armKeypad_tcnt (s : State) : (armKeypad s).tcnt = s.tcnt := rfl
@[simp] theorem armKeypad_dcmp (s : State) : (armKeypad s).dcmp = s.dcmp := rfl
@[simp] theorem armKeypad_kcmp (s : State) : (armKeypad s).kcmp = s.kcmp := rfl
@[simp] theorem armKeypad_dpend (s : State) : (armKeypad s).dpend = s.dpend := rfl
@[simp] theorem armKeypad_kpend (s : State) : (armKeypad s).kpend = s.kpend := rfl
@[simp] theorem armKeypad_ctx (s : State) : (armKeypad s).ctx = s.ctx := rfl
@[simp] theorem armKeypad_tables (s : State) : (armKeypad s).tables = s.tables := rfl
@[simp] theorem armKeypad_host (s : State) : (armKeypad s).host = s.host := rfl
@[simp] theorem armKeypad_ret (s : State) : (armKeypad s).ret = s.ret := rfl
@[simp] theorem armKeypad_trace (s : State) : (armKeypad s).trace = s.trace := rfl
@[simp] theorem armKeypad_sched (s : State) : (armKeypad s).sched = s.sched := rfl
@[simp] theorem armKeypad_draws (s : State) : (armKeypad s).draws = s.draws := rfl

@[simp] theorem setKst_db (k : DebounceState) (s : State) : (setKst k s).db = s.db := rfl
@[simp] theorem setKst_cur (k : DebounceState) (s : State) : (setKst k s).cur = s.cur := rfl
@[simp] theorem setKst_seg (k : DebounceState) (s : State) : (setKst k s).seg = s.seg := rfl
@[simp] theorem setKst_en (k : DebounceState) (s : State) : (setKst k s).en = s.en := rfl
@[simp] theorem setKst_kst (k : DebounceState) (s : State) : (setKst k s).kst = k := rfl
@[simp] theorem setKst_kq (k : DebounceState) (s : State) : (setKst k s).kq = s.kq := rfl
@[simp] theorem setKst_darm (k : DebounceState) (s : State) : (setKst k s).darm = s.darm := rfl
@[simp] theorem setKst_karm (k : DebounceState) (s : State) : (setKst k s).karm = s.karm := rfl
@[simp] theorem setKst_tcnt (k : DebounceState) (s : State) : (setKst k s).tcnt = s.tcnt := rfl
@[simp] theorem setKst_dcmp (k : DebounceState) (s : State) : (setKst k s).dcmp = s.dcmp := rfl
@[simp] theorem setKst_kcmp (k : DebounceState) (s : State) : (setKst k s).kcmp = s.kcmp := rfl
@[simp] theorem setKst_dpend (k : DebounceState) (s : State) : (setKst k s).dpend = s.dpend := rfl
@[simp] theorem setKst_kpend (k : DebounceState) (s : State) : (setKst k s).kpend = s.kpend := rfl
@[simp] theorem setKst_ctx (k : DebounceState) (s : State) : (setKst k s).ctx = s.ctx := rfl
@[simp] theorem setKst_tables (k : DebounceState) (s : State) : (setKst k s).tables = s.tables := rfl
@[simp] theorem setKst_host (k : DebounceState) (s : State) : (setKst k s).host = s.host := rfl
@[simp] theorem setKst_ret (k : DebounceState) (s : State) : (setKst k s).ret = s.ret := rfl
@[simp] theorem setKst_trace (k : DebounceState) (s : State) : (setKst k s).trace = s.trace := rfl
@[simp] theorem setKst_sched (k : DebounceState) (s : State) : (setKst k s).sched = s.sched := rfl
@[simp] theorem setKst_draws (k : DebounceState) (s : State) : (setKst k s).draws = s.draws := rfl

@[simp] theorem emptyQueue_db (s : State) : (emptyQueue s).db = s.db := rfl
@[simp] theorem emptyQueue_cur (s : State) : (emptyQueue s).cur = s.cur := rfl
@[simp] theorem emptyQueue_seg (s : State) : (emptyQueue s).seg = s.seg := rfl
@[simp] theorem emptyQueue_en (s : State) : (emptyQueue s).en = s.en := rfl
@[simp] theorem emptyQueue_kst (s : State) : (emptyQueue s).kst = s.kst := rfl
@[simp] theorem emptyQueue_kq (s : State) : (emptyQueue s).kq = noKey := rfl
@[simp] theorem emptyQueue_darm (s : State) : (emptyQueue s).darm = s.darm := rfl
@[simp] theorem emptyQueue_karm (s : State) : (emptyQueue s).karm = s.karm := rfl
@[simp] theorem emptyQueue_tcnt (s : State) : (emptyQueue s).tcnt = s.tcnt := rfl
@[simp] theorem emptyQueue_dcmp (s : State) : (emptyQueue s).dcmp = s.dcmp := rfl
@[simp] theorem emptyQueue_kcmp (s : State) : (emptyQueue s).kcmp = s.kcmp := rfl
@[simp] theorem emptyQueue_dpend (s : State) : (emptyQueue s).dpend = s.dpend := rfl
@[simp] theorem emptyQueue_kpend (s : State) : (emptyQueue s).kpend = s.kpend := rfl
@[simp] theorem emptyQueue_ctx (s : State) : (emptyQueue s).ctx = s.ctx := rfl
@[simp] theorem emptyQueue_tables (s : State) : (emptyQueue s).tables = s.tables := rfl
@[simp] theorem emptyQueue_host (s : State) : (emptyQueue s).host = s.host := rfl
@[simp] theorem emptyQueue_ret (s : State) : (emptyQueue s).ret = s.ret := rfl
@[simp] theorem emptyQueue_trace (s : State) : (emptyQueue s).trace = s.trace := rfl
@[simp] theorem emptyQueue_sched (s : State) : (emptyQueue s).sched = s.sched := rfl
@[simp] theorem emptyQueue_draws (s : State) : (emptyQueue s).draws = s.draws := rfl

@[simp] theorem drain_db (s : State) : (drain s).db = s.db := rfl
@[simp] theorem drain_cur (s : State) : (drain s).cur = s.cur := rfl
@[simp] theorem drain_seg (s : State) : (drain s).seg = s.seg := rfl
@[simp] theorem drain_en (s : State) : (drain s).en = s.en := rfl
@[simp] theorem drain_kst (s : State) : (drain s).kst = s.kst := rfl
@[simp] theorem drain_kq (s : State) : (drain s).kq = noKey := rfl
@[simp] theorem drain_darm (s : State) : (drain s).darm = s.darm := rfl
@[simp] theorem drain_karm (s : State) : (drain s).karm = s.karm := rfl
@[simp] theorem drain_tcnt (s : State) : (drain s).tcnt = s.tcnt := rfl
@[simp] theorem drain_dcmp (s : State) : (drain s).dcmp = s.dcmp := rfl
@[simp] theorem drain_kcmp (s : State) : (drain s).kcmp = s.kcmp := rfl
@[simp] theorem drain_dpend (s : State) : (drain s).dpend = s.dpend := rfl
@[simp] theorem drain_kpend (s : State) : (drain s).kpend = s.kpend := rfl
@[simp] theorem drain_ctx (s : State) : (drain s).ctx = s.ctx := rfl
@[simp] theorem drain_tables (s : State) : (drain s).tables = s.tables := rfl
@[simp] theorem drain_host (s : State) : (drain s).host = s.host := rfl
@[simp] theorem drain_ret (s : State) : (drain s).ret = some s.kq := rfl
@[simp] theorem drain_trace (s : State) : (drain s).trace = s.trace := rfl
@[simp] theorem drain_sched (s : State) : (drain s).sched = s.sched := rfl
@[simp] theorem drain_draws (s : State) : (drain s).draws = s.draws := rfl

@[simp] theorem beginStep_db (s : State) : (beginStep s).db = s.db := rfl
@[simp] theorem beginStep_cur (s : State) : (beginStep s).cur = s.cur := rfl
@[simp] theorem beginStep_seg (s : State) : (beginStep s).seg = s.seg := rfl
@[simp] theorem beginStep_en (s : State) : (beginStep s).en = s.en := rfl
@[simp] theorem beginStep_kst (s : State) : (beginStep s).kst = s.kst := rfl
@[simp] theorem beginStep_kq (s : State) : (beginStep s).kq = s.kq := rfl
@[simp] theorem beginStep_darm (s : State) : (beginStep s).darm = s.darm := rfl
@[simp] theorem beginStep_karm (s : State) : (beginStep s).karm = s.karm := rfl
@[simp] theorem beginStep_tcnt (s : State) : (beginStep s).tcnt = s.tcnt := rfl
@[simp] theorem beginStep_dcmp (s : State) : (beginStep s).dcmp = s.dcmp := rfl
@[simp] theorem beginStep_kcmp (s : State) : (beginStep s).kcmp = s.kcmp := rfl
@[simp] theorem beginStep_dpend (s : State) : (beginStep s).dpend = s.dpend := rfl
@[simp] theorem beginStep_kpend (s : State) : (beginStep s).kpend = s.kpend := rfl
@[simp] theorem beginStep_ctx (s : State) : (beginStep s).ctx = s.ctx := rfl
@[simp] theorem beginStep_tables (s : State) : (beginStep s).tables = s.tables := rfl
@[simp] theorem beginStep_host (s : State) : (beginStep s).host = s.host := rfl
@[simp] theorem beginStep_ret (s : State) : (beginStep s).ret = none := rfl
@[simp] theorem beginStep_trace (s : State) : (beginStep s).trace = s.trace := rfl
@[simp] theorem beginStep_sched (s : State) : (beginStep s).sched = s.sched := rfl
@[simp] theorem beginStep_draws (s : State) : (beginStep s).draws = s.draws := rfl

@[simp] theorem hold_db (s : State) : (hold s).db = s.db := rfl
@[simp] theorem hold_cur (s : State) : (hold s).cur = s.cur := rfl
@[simp] theorem hold_seg (s : State) : (hold s).seg = s.seg := rfl
@[simp] theorem hold_en (s : State) : (hold s).en = s.en := rfl
@[simp] theorem hold_kst (s : State) : (hold s).kst = s.kst := rfl
@[simp] theorem hold_kq (s : State) : (hold s).kq = s.kq := rfl
@[simp] theorem hold_darm (s : State) : (hold s).darm = s.darm := rfl
@[simp] theorem hold_karm (s : State) : (hold s).karm = s.karm := rfl
@[simp] theorem hold_tcnt (s : State) : (hold s).tcnt = s.tcnt := rfl
@[simp] theorem hold_dcmp (s : State) : (hold s).dcmp = s.dcmp := rfl
@[simp] theorem hold_kcmp (s : State) : (hold s).kcmp = s.kcmp := rfl
@[simp] theorem hold_dpend (s : State) : (hold s).dpend = s.dpend := rfl
@[simp] theorem hold_kpend (s : State) : (hold s).kpend = s.kpend := rfl
@[simp] theorem hold_ctx (s : State) : (hold s).ctx = s.ctx := rfl
@[simp] theorem hold_tables (s : State) : (hold s).tables = s.tables := rfl
@[simp] theorem hold_host (s : State) : (hold s).host = .holding := rfl
@[simp] theorem hold_ret (s : State) : (hold s).ret = s.ret := rfl
@[simp] theorem hold_trace (s : State) : (hold s).trace = s.trace := rfl
@[simp] theorem hold_sched (s : State) : (hold s).sched = s.sched := rfl
@[simp] theorem hold_draws (s : State) : (hold s).draws = s.draws := rfl

@[simp] theorem release_db (s : State) : (release s).db = s.db := rfl
@[simp] theorem release_cur (s : State) : (release s).cur = s.cur := rfl
@[simp] theorem release_seg (s : State) : (release s).seg = s.seg := rfl
@[simp] theorem release_en (s : State) : (release s).en = s.en := rfl
@[simp] theorem release_kst (s : State) : (release s).kst = s.kst := rfl
@[simp] theorem release_kq (s : State) : (release s).kq = s.kq := rfl
@[simp] theorem release_darm (s : State) : (release s).darm = s.darm := rfl
@[simp] theorem release_karm (s : State) : (release s).karm = s.karm := rfl
@[simp] theorem release_tcnt (s : State) : (release s).tcnt = s.tcnt := rfl
@[simp] theorem release_dcmp (s : State) : (release s).dcmp = s.dcmp := rfl
@[simp] theorem release_kcmp (s : State) : (release s).kcmp = s.kcmp := rfl
@[simp] theorem release_dpend (s : State) : (release s).dpend = s.dpend := rfl
@[simp] theorem release_kpend (s : State) : (release s).kpend = s.kpend := rfl
@[simp] theorem release_ctx (s : State) : (release s).ctx = s.ctx := rfl
@[simp] theorem release_tables (s : State) : (release s).tables = s.tables := rfl
@[simp] theorem release_host (s : State) : (release s).host = .free := rfl
@[simp] theorem release_ret (s : State) : (release s).ret = s.ret := rfl
@[simp] theorem release_trace (s : State) : (release s).trace = s.trace := rfl
@[simp] theorem release_sched (s : State) : (release s).sched = s.sched := rfl
@[simp] theorem release_draws (s : State) : (release s).draws = s.draws := rfl

end Sys2Proof.Machine
end

