-- ==== Sys2Proof/Laws/Ops.lean ====
section
/-! SUPPORT. One lemma per shared operation that says what it can do. -/

namespace Sys2Proof.Machine

/-- Read after write on `DB` (R44, R47). -/
@[simp] theorem DisplayBuffer.get_set (b : DisplayBuffer) (i j : Pos) (c : Byte) :
    (b.set i c).get j = if j = i then c else b.get j := by
  unfold DisplayBuffer.set DisplayBuffer.get
  by_cases h0 : i = 0 <;> by_cases h1 : i = 1 <;> by_cases h2 : i = 2 <;>
    by_cases k0 : j = 0 <;> by_cases k1 : j = 1 <;> by_cases k2 : j = 2 <;> simp_all <;> bv_omega

/-- Two buffers with equal slots are equal. -/
theorem DisplayBuffer.ext_get {b c : DisplayBuffer} (h : ∀ i, b.get i = c.get i) : b = c := by
  have h0 := h 0
  have h1 := h 1
  have h2 := h 2
  have h3 := h 3
  cases b
  cases c
  simp_all [DisplayBuffer.get]

@[simp] theorem blankBuffer_get (i : Pos) : blankBuffer.get i = blankChar := by
  unfold DisplayBuffer.get blankBuffer
  split
  · rfl
  · split
    · rfl
    · split <;> rfl

@[simp] theorem keyPending_eq_true (s : State) : keyPending s = true ↔ s.kq ≠ noKey := by
  simp [keyPending]

@[simp] theorem keyPending_eq_false (s : State) : keyPending s = false ↔ s.kq = noKey := by
  simp [keyPending]

/-- Publishing writes an empty queue and leaves a full one alone (R130, R131). -/
theorem publish_eq (k : Byte) (s : State) :
    publish k s = { s with kq := if s.kq = noKey then k else s.kq } := by
  by_cases h : s.kq = noKey
  · simp [publish, keyPending, h]
  · simp [publish, keyPending, h]

/-- A host operation answers a next state exactly in normal context (R153). -/
theorem fromHost_next {s t t' : State} : fromHost s t = .next t' ↔ s.ctx = .normal ∧ t' = t := by
  unfold fromHost
  cases h : s.ctx <;> simp [eq_comm]

theorem fromHost_normal {s : State} (t : State) (h : s.ctx = .normal) : fromHost s t = .next t := by
  simp [fromHost, h]

theorem fromHost_interrupt {s : State} (t : State) (h : s.ctx = .interrupt) :
    fromHost s t = .refused .hostOpInTick := by
  simp [fromHost, h]

/-- A legal position operand names the slot of its low bits (R74). -/
theorem slotOf_legal {p : Byte} (h : p ≤ 3) : slotOf p = some (p.setWidth 2) := if_pos h

/-- A position above 3 names no slot (R74). -/
theorem slotOf_illegal {p : Byte} (h : ¬ p ≤ 3) : slotOf p = none := if_neg h

/-- What `finish` answers. -/
theorem finish_next {r : Result} {t : State} :
    finish r = .next t ↔ ∃ u, r = .next u ∧ t = { u with ctx := .normal } := by
  cases r <;> simp [finish, eq_comm]

/-- No event, no time: the state stays (R155). -/
@[simp] theorem passTime_zero (s : State) : passTime 0 s = s := by simp [passTime]

/-- Time passing touches the counter and the pending bits only (R157). -/
theorem passTime_frame (n : Nat) (s : State) :
    ∃ c d k, passTime n s = { s with tcnt := c, dpend := d, kpend := k } := by
  by_cases h : n = 0
  · exact ⟨s.tcnt, s.dpend, s.kpend, by simp [passTime, h]⟩
  · exact ⟨_, _, _, by simp only [passTime, h, if_false]; rfl⟩

end Sys2Proof.Machine
end

