-- ==== Sys2Proof/Laws/Tables.lean ====
section
/-! SUPPORT. The segment ROM, the key table and the scanner, for any table and for the default one. -/

namespace Sys2Proof.Machine

/-- The parameters `SEG_STAR` and `SEG_HASH` have bit 7 clear (R62). -/
@[simp] theorem openPattern_bit7 (p : BitVec 7) : (openPattern p).getLsbD 7 = false := by
  simp [openPattern]

/-- A character that no row supports is blank, in any `SEGROM` (R61). -/
theorem segLookup_unsupported {rows : List SegRow} {c : Byte} (h : ∀ r ∈ rows, r.char ≠ c) :
    segLookup rows c = 0x00 := by
  have : rows.find? (fun r => r.char == c) = none := by simpa using h
  simp [segLookup, this]

/-- An entry is blank or the pattern of a row for that character, in any `SEGROM` (R61). -/
theorem segLookup_mem (rows : List SegRow) (c : Byte) :
    segLookup rows c = 0x00 ∨ ∃ r ∈ rows, r.char = c ∧ segLookup rows c = r.pattern := by
  unfold segLookup
  cases h : rows.find? (fun r => r.char == c) with
  | none => exact .inl rfl
  | some r => exact .inr ⟨r, List.mem_of_find?_eq_some h, by simpa using List.find?_some h, rfl⟩

/-- What a scan of any table finds: a symbol of the table (R111). -/
theorem scanFrom_mem {rows : List KeyRow} {i : Nat} {e : BitVec 16} {k : Byte}
    (h : scanFrom rows i e = some k) : ∃ r ∈ rows, r.sym = k := by
  induction rows generalizing i with
  | nil => simp [scanFrom] at h
  | cons r rows ih =>
    simp only [scanFrom] at h
    split at h
    · exact ⟨r, by simp, by simpa using h⟩
    · obtain ⟨q, hq, hk⟩ := ih h
      exact ⟨q, by simp [hq], hk⟩

/-- A scan that starts where no bit is set finds nothing (R111). -/
theorem scanFrom_none {rows : List KeyRow} {i : Nat} {e : BitVec 16}
    (h : ∀ j, i ≤ j → e.getLsbD j = false) : scanFrom rows i e = none := by
  induction rows generalizing i with
  | nil => rfl
  | cons r rows ih =>
    rw [scanFrom, h i (Nat.le_refl i)]
    exact ih (fun j hj => h j (by omega))

/-- A scan whose bit `i + n` is set, for a row there is, finds something (R111). -/
theorem scanFrom_isSome {rows : List KeyRow} {i n : Nat} {e : BitVec 16} (hn : n < rows.length)
    (he : e.getLsbD (i + n) = true) : (scanFrom rows i e).isSome = true := by
  induction rows generalizing i n with
  | nil => simp at hn
  | cons r rows ih =>
    rw [scanFrom]
    split
    · rfl
    · cases n with
      | zero => simp_all
      | succ n =>
        have h : i + (n + 1) = i + 1 + n := by omega
        exact ih (by simpa using hn) (h ▸ he)

/-- No echo, no key, whatever the table (R112). -/
@[simp] theorem scan_zero (t : Tables) : scan t 0#16 = none := scanFrom_none (by simp)

/-- What `Tables.wf` says of the segment ROM. -/
theorem Tables.wf_segrom {t : Tables} (h : t.wf = true) :
    (∀ r ∈ t.segrom, r.char ∈ supportedAlphabet ∧ r.pattern.getLsbD 7 = false) ∧
      encode t 0x35 = 0x6D ∧ encode t 0x61 = 0x77 ∧ encode t 0x20 = 0x00 := by
  simp only [Tables.wf, segromOk, Bool.and_eq_true, List.all_eq_true, decide_eq_true_eq, beq_iff_eq,
    Bool.not_eq_true'] at h
  exact ⟨h.1.1.1.1, h.1.1.1.2, h.1.1.2, h.1.2⟩

/-- What `Tables.wf` says of the key table (R66). -/
theorem Tables.wf_keytab {t : Tables} (h : t.wf = true) :
    t.keytab.length = 16 ∧ (t.keytab.map KeyRow.code).Nodup ∧ (t.keytab.map KeyRow.sym).Perm keySymbols ∧
      ⟨0xEE, 0x31⟩ ∈ t.keytab := by
  simp only [Tables.wf, keytabOk, Bool.and_eq_true, decide_eq_true_eq, beq_iff_eq, List.isPerm_iff] at h
  exact ⟨h.2.1.1.1, h.2.1.1.2, h.2.1.2, h.2.2⟩

/-- Bit 7 of every pattern is 0 (R63). -/
theorem encode_bit7 {t : Tables} (h : t.wf = true) (c : Byte) : (encode t c).getLsbD 7 = false := by
  rcases segLookup_mem t.segrom c with hz | ⟨r, hr, _, hp⟩
  · simp [encode, hz]
  · rw [encode, hp]
    exact ((Tables.wf_segrom h).1 r hr).2

/-- With a table of sixteen rows, a key is active exactly when some code echoes (R75, R112). -/
theorem scan_eq_none {t : Tables} (h : t.wf = true) (e : BitVec 16) : scan t e = none ↔ e = 0 := by
  refine ⟨fun hs => ?_, fun he => he ▸ scan_zero t⟩
  apply BitVec.eq_of_getLsbD_eq
  intro i hi
  by_contra hne
  have hb : e.getLsbD (0 + i) = true := by simpa using hne
  have := scanFrom_isSome (rows := t.keytab) (by rw [(Tables.wf_keytab h).1]; exact hi) hb
  rw [scan] at hs
  simp [hs] at this

/-- The symbol a scan finds is one of the sixteen key symbols (R66, R68). -/
theorem scan_symbol {t : Tables} (h : t.wf = true) {e : BitVec 16} {k : Byte} (hs : scan t e = some k) :
    k ∈ keySymbols := by
  obtain ⟨r, hr, rfl⟩ := scanFrom_mem hs
  exact (Tables.wf_keytab h).2.2.1.subset (List.mem_map_of_mem hr)

/-- The default instance is as the spec asks (R62, R66, R67). -/
theorem defaultTables_wf : defaultTables.wf = true := by
  have hk : keytabOk defaultKeytab = true := by decide
  have hs : segromOk defaultSegrom = true := by
    simp only [segromOk, defaultSegrom, List.cons_append, List.nil_append, List.all_cons, List.all_nil,
      openPattern_bit7]
    decide
  simp [Tables.wf, defaultTables, hk, hs]

/-- The codes of R70 and the states they name. -/
@[simp] theorem kstOfCode_kstCode (k : DebounceState) : kstOfCode (kstCode k) = k := by
  cases k <;> rfl

end Sys2Proof.Machine
end

