-- ==== Sys2Proof/Laws/Exec.lean ====
section
/-! SUPPORT. What each operation does, as one equation, and the slot writes of `CLRD`. -/

namespace Sys2Proof.Machine

theorem inHandler_refreshTick (s : State) :
    inHandler refreshTick s =
      { s with
        en := onehot4 s.cur
        seg := encode s.tables (s.db.get s.cur)
        cur := s.cur + 1
        dcmp := s.tcnt + BitVec.ofNat Config.tcntW Config.tDisp
        dpend := false } := rfl

/-- The debounce engine's next state (R113's table). -/
def nextKst (k : DebounceState) (active : Bool) : DebounceState :=
  match k, active with
  | .idle, false => .idle
  | .idle, true => .pressPending
  | .pressPending, false => .idle
  | .pressPending, true => .pressedWaitRelease
  | .pressedWaitRelease, false => .releasePending
  | .pressedWaitRelease, true => .pressedWaitRelease
  | .releasePending, false => .idle
  | .releasePending, true => .pressedWaitRelease

/-- The queue after a keypad tick (R113's table). -/
def nextKq (k : DebounceState) (sym : Option Byte) (q : Byte) : Byte :=
  match k, sym with
  | .pressPending, some c => if q = noKey then c else q
  | _, _ => q

theorem inHandler_debounceTick (sym : Option Byte) (s : State) :
    inHandler (debounceTick sym) s =
      { s with
        kst := nextKst s.kst sym.isSome
        kq := nextKq s.kst sym s.kq
        kcmp := s.tcnt + BitVec.ofNat Config.tcntW Config.tKey
        kpend := false } := by
  cases hk : s.kst <;> cases sym <;>
    simp [inHandler, debounceTick, tickIdle, tickPressPending, tickPressedWaitRelease,
      tickReleasePending, rescheduleKeypad, setKst, publish_eq, nextKst, nextKq, hk]

/-- The slots a `CLRD` still has to write are slots it had to write before (R93). -/
theorem clearRun_pending_subset (cs : List Choice) (pending : List Pos) (b : DisplayBuffer) {i : Pos}
    (h : i ∈ (clearRun cs pending b).2.1) : i ∈ pending := by
  induction cs generalizing pending b with
  | nil => simp [clearRun] at h
  | cons c cs ih =>
    cases pending with
    | nil => simp [clearRun] at h
    | cons p ps =>
      cases c with
      | yield => simpa [clearRun] using h
      | slot j => exact List.mem_of_mem_filter (ih _ _ h)

theorem foldl_blank_get (pending : List Pos) (b : DisplayBuffer) (i : Pos) :
    (pending.foldl (fun b i => b.set i blankChar) b).get i =
      if i ∈ pending then blankChar else b.get i := by
  induction pending generalizing b with
  | nil => simp
  | cons p ps ih =>
    simp only [List.foldl_cons, ih, DisplayBuffer.get_set, List.mem_cons]
    by_cases h1 : i ∈ ps <;> by_cases h2 : i = p <;> simp [h1, h2]

/-- A slot of a `CLRD` is blank once it is no longer to be written; every other slot is as before (R93). -/
theorem clearRun_get (cs : List Choice) (pending : List Pos) (b : DisplayBuffer) (i : Pos) :
    (clearRun cs pending b).2.2.get i =
      if i ∈ pending ∧ i ∉ (clearRun cs pending b).2.1 then blankChar else b.get i := by
  induction cs generalizing pending b with
  | nil => simp [clearRun, foldl_blank_get]
  | cons c cs ih =>
    cases pending with
    | nil => simp [clearRun]
    | cons p ps =>
      cases c with
      | yield =>
        have h : ¬(i ∈ p :: ps ∧ i ∉ (clearRun (.yield :: cs) (p :: ps) b).2.1) := fun h => h.2 h.1
        rw [if_neg h]
        rfl
      | slot j =>
        have hsub := clearRun_pending_subset cs ((p :: ps).filter (fun q => q != j))
          (if j ∈ p :: ps then b.set j blankChar else b) (i := i)
        simp only [clearRun, ih, List.mem_filter, bne_iff_ne]
        by_cases hj : i = j
        · subst hj
          by_cases hm : i ∈ p :: ps
          · have : i ∉ (clearRun cs ((p :: ps).filter (fun q => q != i))
                (if i ∈ p :: ps then b.set i blankChar else b)).2.1 := by
              intro h
              simpa using hsub h
            simp only [hm, if_true] at this ⊢
            simp [this]
          · simp [hm]
        · by_cases hm : j ∈ p :: ps <;> simp [hj, hm]

/-- With no `yield` among the choices a `CLRD` is not divided (R93). -/
theorem clearRun_undivided (cs : List Choice) (pending : List Pos) (b : DisplayBuffer)
    (h : Choice.yield ∉ cs) : (clearRun cs pending b).2.1 = [] := by
  induction cs generalizing pending b with
  | nil => rfl
  | cons c cs ih =>
    cases pending with
    | nil => rfl
    | cons p ps =>
      cases c with
      | yield => simp at h
      | slot j => exact ih _ _ (by simp_all)

/-- The one inversion lemma of `exec`: every next state an operation can answer, field by field. -/
theorem exec_next_cases {i : Instr} {s t : State} (h : exec i s = .next t) :
    (i = .reset ∧ t = resetBlock s) ∨
    (i = .initd ∧ s.ctx = .normal ∧ t = initDisplay s) ∨
    (i = .clrd ∧ s.ctx = .normal ∧ t = advanceClear [0, 1, 2, 3] s) ∨
    (∃ c p q, i = .setc c p ∧ slotOf p = some q ∧ s.ctx = .normal ∧ t = writeSlot q c s) ∨
    (i = .tickd ∧ s.darm = true ∧ t = inHandler refreshTick s) ∨
    (i = .initk ∧ s.ctx = .normal ∧ t = initKeypad s) ∨
    (i = .poll ∧ s.ctx = .normal ∧ t = drain s) ∨
    (i = .readk ∧ s.ctx = .normal ∧ t = if keyPending s then drain s else hold s) ∨
    (∃ e, i = .tickk e ∧ s.karm = true ∧ t = inHandler (debounceTick (scan s.tables e)) s) := by
  cases i with
  | reset => exact .inl ⟨rfl, by simpa [exec, execReset, eq_comm] using h⟩
  | initd => exact .inr (.inl ⟨rfl, fromHost_next.mp h⟩)
  | clrd => exact .inr (.inr (.inl ⟨rfl, fromHost_next.mp h⟩))
  | setc c p =>
    simp only [exec, execSetc] at h
    cases hq : slotOf p with
    | none => simp [hq] at h
    | some q =>
      rw [hq, fromHost_next] at h
      exact .inr (.inr (.inr (.inl ⟨c, p, q, rfl, hq, h⟩)))
  | tickd =>
    simp only [exec, execTickd] at h
    split at h
    · rename_i hd
      cases h
      exact .inr (.inr (.inr (.inr (.inl ⟨rfl, hd, rfl⟩))))
    · cases h
  | initk => exact .inr (.inr (.inr (.inr (.inr (.inl ⟨rfl, fromHost_next.mp h⟩)))))
  | poll => exact .inr (.inr (.inr (.inr (.inr (.inr (.inl ⟨rfl, fromHost_next.mp h⟩))))))
  | readk => exact .inr (.inr (.inr (.inr (.inr (.inr (.inr (.inl ⟨rfl, fromHost_next.mp h⟩)))))))
  | tickk e =>
    simp only [exec, execTickk] at h
    split at h
    · rename_i hk
      cases h
      exact .inr (.inr (.inr (.inr (.inr (.inr (.inr (.inr ⟨e, rfl, hk, rfl⟩)))))))
    · cases h

end Sys2Proof.Machine
end

