-- ==== Sys2Proof/Laws/Events.lean ====
section
/-! SUPPORT. What one step can be: the host's own step, nothing, or an operation (R49). -/

namespace Sys2Proof.Machine

@[simp] theorem dropYield_db (s : State) : (dropYield s).db = s.db := by unfold dropYield; split <;> rfl
@[simp] theorem dropYield_host (s : State) : (dropYield s).host = s.host := by
  unfold dropYield; split <;> rfl
@[simp] theorem dropYield_kq (s : State) : (dropYield s).kq = s.kq := by unfold dropYield; split <;> rfl

/-- Serving a `yield` changes the choices left and nothing else. -/
theorem dropYield_frame (s : State) : ∃ cs, dropYield s = { s with sched := cs } := by
  unfold dropYield
  split
  · exact ⟨_, rfl⟩
  · exact ⟨s.sched, rfl⟩

/-- The arrival of an event changes the trace, the choices, the context and the timing state only. -/
theorem arrive_frame (e : Event) (rest : List Event) (s : State) :
    ∃ c d k, arrive e rest s =
      { s with
        trace := rest, ctx := e.ctx, sched := s.sched ++ e.choices, tcnt := c, dpend := d, kpend := k } := by
  obtain ⟨c, d, k, h⟩ :=
    passTime_frame e.elapsed { s with trace := rest, ctx := e.ctx, sched := s.sched ++ e.choices }
  exact ⟨c, d, k, h⟩

@[simp] theorem hostReady_beginStep (s : State) : hostReady (beginStep s) = hostReady s := rfl
@[simp] theorem wantsYield_beginStep (s : State) : wantsYield (beginStep s) = wantsYield s := rfl
@[simp] theorem nextEvent_beginStep (s : State) : nextEvent (beginStep s) = nextEvent s := rfl

/-- A host with an atomic step of its own, and no `yield` before it, takes it (R49). -/
theorem step_of_hostReady {s : State} (hr : hostReady s = true) (hy : wantsYield s = false) :
    step s = .next (hostStep (beginStep s)) := by
  have hd : dropYield (beginStep s) = beginStep s := by simp [dropYield, hy]
  simp only [step, nextMove, nextEvent_beginStep, hostReady_beginStep, wantsYield_beginStep, hr, hy]
  cases nextEvent s with
  | none => simp [hd]
  | some p => simp

/-- An event that is picked when the host has no step of its own runs, or is refused (R49, R144). -/
theorem step_of_event {s : State} {e : Event} {rest : List Event} (hr : hostReady s = false)
    (hn : nextEvent s = some (e, rest)) :
    step s = match decodeWord e.word with
      | .ok i => finish (exec i (arrive e rest (beginStep s)))
      | .error err => .refused (refusalOf err) := by
  simp only [step, nextMove, nextEvent_beginStep, hostReady_beginStep, hr, hn, moveEvent]
  cases decodeWord e.word <;> simp

/-- The inversion lemma of `step`: a next state comes from the host's own step, from having nothing to do,
or from an operation run on a state that differs only in the trace, the choices, the context, the returned
byte and the timing state. -/
theorem step_next_cases {s t : State} (h : step s = .next t) :
    (∃ cs, hostReady s = true ∧ t = hostStep { beginStep s with sched := cs }) ∨
    (hostReady s = false ∧ nextEvent s = none ∧ t = beginStep s) ∨
    (∃ i e rest cs u, exec i (arrive e rest { beginStep s with sched := cs }) = .next u ∧
      decodeWord e.word = .ok i ∧ nextEvent s = some (e, rest) ∧ t = { u with ctx := .normal }) := by
  have key : ∀ (e : Event) (rest : List Event) (w : State), (∃ cs, w = { beginStep s with sched := cs }) →
      (match moveEvent e rest w with
        | .done t => Host.Outcome.next t
        | .refuse r => .refused r
        | .run i t => finish (exec i t)) = .next t →
      ∃ i cs u, exec i (arrive e rest { beginStep s with sched := cs }) = .next u ∧
        decodeWord e.word = .ok i ∧ t = { u with ctx := .normal } := by
    rintro e rest w ⟨cs, rfl⟩ hm
    cases hd : decodeWord e.word with
    | error err => simp [moveEvent, hd] at hm
    | ok i =>
      simp only [moveEvent, hd, finish_next] at hm
      obtain ⟨u, hu, ht⟩ := hm
      exact ⟨i, cs, u, hu, rfl, ht⟩
  simp only [step, nextMove, nextEvent_beginStep, hostReady_beginStep, wantsYield_beginStep] at h
  cases hn : nextEvent s with
  | none =>
    simp only [hn] at h
    cases hr : hostReady s with
    | true =>
      obtain ⟨cs, hcs⟩ := dropYield_frame (beginStep s)
      simp only [hr, if_true, hcs] at h
      exact .inl ⟨cs, rfl, (Host.Outcome.next.inj h).symm⟩
    | false =>
      simp only [hr] at h
      exact .inr (.inl ⟨rfl, rfl, (Host.Outcome.next.inj h).symm⟩)
  | some p =>
    obtain ⟨e, rest⟩ := p
    simp only [hn] at h
    refine (?_ : _ ∨ ∃ i cs u, exec i (arrive e rest { beginStep s with sched := cs }) = .next u ∧
        decodeWord e.word = .ok i ∧ t = { u with ctx := .normal }).imp id
      (fun ⟨i, cs, u, hu, hd, ht⟩ => .inr ⟨i, e, rest, cs, u, hu, hd, rfl, ht⟩)
    cases hr : hostReady s with
    | true =>
      cases hy : wantsYield s with
      | true =>
        simp only [hr, hy, if_true] at h
        exact .inr (key e rest _ (dropYield_frame (beginStep s)) h)
      | false =>
        simp only [hr, hy] at h
        exact .inl ⟨s.sched, rfl, (Host.Outcome.next.inj h).symm⟩
    | false =>
      simp only [hr] at h
      exact .inr (key e rest _ ⟨s.sched, rfl⟩ h)

/-- `hostStep` changes what its operation writes, and nothing else (R93, R133). -/
theorem hostStep_frame (s : State) :
    ∃ b q r o cs, hostStep s = { s with db := b, kq := q, ret := r, host := o, sched := cs } ∧
      (q = s.kq ∨ q = noKey) := by
  unfold hostStep
  cases s.host with
  | free => exact ⟨s.db, s.kq, s.ret, s.host, s.sched, rfl, .inl rfl⟩
  | clearing pending => exact ⟨_, s.kq, s.ret, _, _, rfl, .inl rfl⟩
  | holding => exact ⟨s.db, noKey, some s.kq, .free, s.sched, rfl, .inr rfl⟩

end Sys2Proof.Machine
end

