-- ==== Sys2Proof/Laws/PerInstr.lean ====
section
/-! SUPPORT. Per-instruction statements. Family `OpcodeRow`: the word the encoder gives an instruction has
the fixed bits of its own row of the opcode table, whatever its operands. -/

namespace Sys2Proof.Laws.OpcodeRow

/-- The instruction's word is covered by the row of its mnemonic (R73). -/
def Statement (i : Instr) : Prop :=
  ∃ r ∈ opcodeTable, r.mnemonic = i.mnemonic ∧ r.covers (encodeWord i) = true

/-- Masked to its opcode field, a packed word keeps its opcode and nothing else (R72). -/
theorem packWord_masked (op a b : Byte) :
    packWord op a b &&& (0xFF0000 : Word24) = packWord op 0 0 := by
  apply BitVec.eq_of_getLsbD_eq
  intro i hi
  rw [BitVec.getLsbD_and, packWord_getLsbD, packWord_getLsbD]
  interval_cases i <;> simp

theorem reset : Statement .reset := by unfold Statement; decide
theorem initd : Statement .initd := by unfold Statement; decide
theorem clrd : Statement .clrd := by unfold Statement; decide
theorem setc (ch position : Byte) : Statement (.setc ch position) :=
  ⟨⟨"SETC", 0x030000, 0xFF0000⟩, by decide, rfl,
    beq_iff_eq.mpr (packWord_masked 0x03 ch position)⟩
theorem tickd : Statement .tickd := by unfold Statement; decide
theorem initk : Statement .initk := by unfold Statement; decide
theorem poll : Statement .poll := by unfold Statement; decide
theorem readk : Statement .readk := by unfold Statement; decide
theorem tickk (e : BitVec 16) : Statement (.tickk e) :=
  ⟨⟨"TICKK", 0x140000, 0xFF0000⟩, by decide, rfl,
    beq_iff_eq.mpr (packWord_masked 0x14 (e.extractLsb' 8 8) (e.extractLsb' 0 8))⟩

end Sys2Proof.Laws.OpcodeRow
end

