-- ==== Sys2Proof/Tests/Slice0.lean ====
section
/-! SUPPORT. Tests: expected results are the vectors of spec/95_test_vectors.md (named in each comment) or the
encodings of spec/30_encoding.md; then one witness per statement that has hypotheses. -/

namespace Sys2Proof.Tests

open Sys2Proof Sys2Proof.Machine Sys2Proof.Safety

/-! ## Well-formedness -/

theorem test_wf_refuses_position_4 : (Instr.setc 0x61 4).wf = false := by decide
theorem test_wf_accepts_position_3 : (Instr.setc 0xFF 3).wf = true := by decide

/-! ## Decoding: words written out from R72, R73 (op, a, b), and vectors X1 to X13 -/

theorem test_decode_words :
    decodeWord 0b000000000000000000000000 = .ok .reset ∧
    decodeWord 0b000000010000000000000000 = .ok .initd ∧
    decodeWord 0b000000100000000000000000 = .ok .clrd ∧
    decodeWord 0b000000110011010100000010 = .ok (.setc 0b00110101 0b00000010) ∧
    decodeWord 0b000001000000000000000000 = .ok .tickd ∧
    decodeWord 0b000100000000000000000000 = .ok .initk ∧
    decodeWord 0b000100010000000000000000 = .ok .poll ∧
    decodeWord 0b000100100000000000000000 = .ok .readk ∧
    decodeWord 0b000101001000000000000001 = .ok (.tickk 0b1000000000000001) := by decide

/-- X2 to X6, X11, X13. -/
theorem test_decode_refuses :
    decodeWord 0x040001 = .error (.reservedOperand 0x040001) ∧
    decodeWord 0x040100 = .error (.reservedOperand 0x040100) ∧
    decodeWord 0x050000 = .error (.reservedOpcode 0x05) ∧
    decodeWord 0x130000 = .error (.reservedOpcode 0x13) ∧
    decodeWord 0x0F0000 = .error (.reservedOpcode 0x0F) ∧
    decodeWord 0x150000 = .error (.reservedOpcode 0x15) ∧
    decodeWord 0xFF0000 = .error (.reservedOpcode 0xFF) ∧
    decodeWord 0x110031 = .error (.reservedOperand 0x110031) ∧
    decodeWord 0x000001 = .error (.reservedOperand 0x000001) := by decide

/-- The words of R78's table. -/
theorem test_encode_words :
    encodeWord (.setc 0x35 2) = 0x033502 ∧ encodeWord (.tickk 0x0022) = 0x140022 ∧
    encodeWord .readk = 0x120000 ∧ encodeWord (.tickk 0xFF00) = 0x14FF00 := by decide

theorem test_decodeTableWord : decodeTableWord 24 0x033502 = some (.setc 0x35 2) := by decide

/-! ## Tables and scanner -/

/-- E1 to E8, E12, E16, E19 to E28. -/
theorem test_encode_characters :
    [0x35, 0x61, 0x30, 0x39, 0x62, 0x66].map (encode defaultTables) = [0x6D, 0x77, 0x3F, 0x6F, 0x7C, 0x71] ∧
    ∀ c ∈ [0x20, 0x00, 0x2F, 0x3A, 0x60, 0x67, 0x41, 0xB5, 0x05], encode defaultTables c = 0x00 := by decide

/-- K1, K4, K13, K16, K17, K20, K22. -/
theorem test_decode_keys :
    [0xEE, 0xE7, 0x7E, 0x77, 0xFF, 0xEC, 0x00].map (decode defaultTables) =
      [some 0x31, some 0x61, some 0x2A, some 0x64, none, none, none] := by decide

/-- S1 to S7. -/
theorem test_scan :
    [0x0000, 0x0001, 0x8000, 0x0022, 0x8001, 0xFFFF, 0xFFFE].map (scan defaultTables) =
      [none, some 0x31, some 0x64, some 0x32, some 0x31, some 0x31, some 0x32] := by decide

/-- U2: a `SEGROM` in which `'b'` to `'f'` are not supported is one the spec admits, and shows them blank; and
a pattern with bit 7, or a table without the source's `'5'`, is not. -/
theorem test_other_tables :
    Tables.wf ⟨[⟨0x35, 0x6D⟩, ⟨0x61, 0x77⟩], defaultKeytab⟩ = true ∧
    encode ⟨[⟨0x35, 0x6D⟩, ⟨0x61, 0x77⟩], defaultKeytab⟩ 0x62 = 0x00 ∧
    segromOk [⟨0x35, 0x6D⟩, ⟨0x61, 0x77⟩, ⟨0x30, 0xBF⟩] = false ∧ segromOk [⟨0x61, 0x77⟩] = false ∧
    keytabOk defaultKeytab.tail = false ∧ keytabOk defaultKeytab.reverse = true := by decide

/-! ## The meanings, one step each -/

/-- `S0` of spec/95_test_vectors.md: the state after `RESET`, `INITD`, `INITK`. -/
def s0 : State := { State.reset with db := blankBuffer, darm := true, karm := true }

/-- The next state of a result, when there is one. -/
def nextOf (r : Result) : Option State :=
  match r with
  | .next s => some s
  | .fault f => nomatch f
  | .refused _ => none

/-- The refusal of a result, when there is one. -/
def refusalIn (r : Result) : Option Refusal :=
  match r with
  | .next _ => none
  | .fault f => nomatch f
  | .refused r => some r

/-- The buffer of Part 2.2: 'a', blank, '5', blank. -/
def shown : DisplayBuffer := ⟨0x61, 0x20, 0x35, 0x20⟩

/-- One event of the host, the timers or the platform, with no time passing and no choices. -/
def event (w : Word24) : Event := ⟨0, .normal, w, []⟩

/-- TD1. -/
theorem test_tickd_first :
    (nextOf (exec .tickd { s0 with db := shown })).map (fun t => (t.cur, t.en, t.seg, t.db))
      = some (1, 0b0001, 0x77, shown) := by decide

/-- TD3. -/
theorem test_tickd_wraps :
    (nextOf (exec .tickd { s0 with db := shown, cur := 3, en := 0b0100, seg := 0x6D })).map
      (fun t => (t.cur, t.en, t.seg)) = some (0, 0b1000, 0x00) := by decide

/-- W2. -/
theorem test_initd_while_armed :
    (nextOf (exec .initd { s0 with db := shown, cur := 3, en := 0b0100, seg := 0x6D })).map
      (fun t => (t.db, t.cur, t.en, t.seg, t.darm)) = some (blankBuffer, 0, 0, 0, true) := by decide

/-- W3. -/
theorem test_clrd_leaves_pins :
    (nextOf (exec .clrd { s0 with db := shown, cur := 3, en := 0b0100, seg := 0x6D })).map
      (fun t => (t.db, t.cur, t.en, t.seg, t.host)) = some (blankBuffer, 3, 0b0100, 0x6D, .free) := by decide

/-- W11: `CLRD` split after two slots. -/
theorem test_clrd_split :
    (nextOf (exec .clrd { s0 with db := ⟨0x31, 0x32, 0x33, 0x34⟩, sched := [.slot 1, .slot 2, .yield] })).map
      (fun t => (t.db, t.host)) = some (⟨0x31, 0x20, 0x20, 0x34⟩, .clearing [0, 3]) := by decide

/-- W11 from State.reset on: the `CLRD` event brings its own choices, and a `TICKD` falls inside it. -/
theorem test_clrd_split_by_event :
    let s := { State.reset with
      darm := true, trace := [⟨0, .normal, 0x020000, [.slot 3, .yield, .slot 0, .yield]⟩, event 0x040000] }
    ((nextOf (step s)).map (fun t => (t.db.d3, t.host)) = some (0x20, .clearing [0, 1, 2])) ∧
    ((nextOf (step s)).bind (fun t => nextOf (step t))).map (fun t => (t.cur, t.host, t.sched, t.trace)) =
      some (1, .clearing [0, 1, 2], [.slot 0, .yield], []) := by decide

/-- W6. -/
theorem test_setc_highest_position :
    (nextOf (exec (.setc 0x61 3) s0)).map State.db = some ⟨0x20, 0x20, 0x20, 0x61⟩ := by decide

/-- W7 and W8. -/
theorem test_setc_out_of_range :
    refusalIn (exec (.setc 0x61 4) s0) = some (.positionOutOfRange 4) ∧
    refusalIn (exec (.setc 0x61 255) s0) = some (.positionOutOfRange 255) := by decide

/-- Q2. -/
theorem test_initk_discards :
    (nextOf (exec .initk { s0 with kst := .pressedWaitRelease, kq := 0x31 })).map
      (fun t => (t.kst, t.kq, t.karm)) = some (.idle, 0x00, true) := by decide

/-- Q5. -/
theorem test_poll_drains :
    (nextOf (exec .poll { s0 with kst := .pressedWaitRelease, kq := 0x31 })).map
      (fun t => (t.ret, t.kq, t.kst)) = some (some 0x31, 0x00, .pressedWaitRelease) := by decide

/-- Q6 and Q7. -/
theorem test_readk :
    (nextOf (exec .readk { s0 with kq := 0x31 })).map (fun t => (t.ret, t.kq, t.host))
      = some (some 0x31, 0x00, .free) ∧
    (nextOf (exec .readk s0)).map (fun t => (t.ret, t.kq, t.host)) = some (none, 0x00, .holding) := by decide

/-- T4 and T5. -/
theorem test_tickk_publishes_or_drops :
    (nextOf (exec (.tickk 1) { s0 with kst := .pressPending })).map (fun t => (t.kst, t.kq))
      = some (.pressedWaitRelease, 0x31) ∧
    (nextOf (exec (.tickk 1) { s0 with kst := .pressPending, kq := 0x32 })).map (fun t => (t.kst, t.kq))
      = some (.pressedWaitRelease, 0x32) := by decide

/-- T10 and T13. -/
theorem test_tickk_does_not_repeat :
    (nextOf (exec (.tickk 1) { s0 with kst := .releasePending })).map (fun t => (t.kst, t.kq))
      = some (.pressedWaitRelease, 0x00) ∧
    (nextOf (exec (.tickk 2) { s0 with kst := .pressedWaitRelease })).map (fun t => (t.kst, t.kq))
      = some (.pressedWaitRelease, 0x00) := by decide

/-- Z1 and Z2. -/
theorem test_reset_disarms :
    (nextOf (exec .reset { s0 with host := .holding })).map (fun t => (t.darm, t.karm, t.host))
      = some (false, false, .free) ∧
    refusalIn (exec .tickd State.reset) = some .displayUnarmed := by decide

/-- The very next step after reset runs the word placed (X7). -/
theorem test_withFetchWord :
    (nextOf (step (State.reset.withFetchWord 24 0x033503))).map (fun t => (t.db, t.trace))
      = some (⟨0, 0, 0, 0x35⟩, []) := by decide

/-- P6, step 7: a holding host takes the symbol before the `POLL` behind it. -/
theorem test_step_ends_hold :
    (nextOf (step { s0 with host := .holding, kq := 0x64, trace := [event 0x110000] })).map
      (fun t => (t.ret, t.kq, t.host, t.trace)) = some (some 0x64, 0x00, .free, [event 0x110000]) := by decide

/-- P6, step 5: a tick comes while the host holds, before the `POLL` that the host cannot issue yet. -/
theorem test_step_tick_during_hold :
    (nextOf (step { s0 with host := .holding, trace := [event 0x110000, event 0x140400] })).map
      (fun t => (t.kst, t.host, t.trace)) = some (.pressPending, .holding, [event 0x110000]) := by decide

/-! ## Witnesses: concrete states and operands that meet the hypotheses of each statement -/

theorem witness_EncodeDecodeRoundTrip :
    ∃ w i, decodeWord w = .ok i := ⟨0x033502, .setc 0x35 2, by decide⟩

theorem witness_DecoderAgreesWithOpcodeTable :
    (∃ w i, decodeWord w = .ok i) ∧ ∃ r ∈ opcodeTable, r.covers 0x14FFFF = true :=
  ⟨⟨0x14FFFF, .tickk 0xFFFF, by decide⟩, ⟨"TICKK", 0x140000, 0xFF0000⟩, by decide, by decide⟩

theorem witness_ReservedOpcodeRefused :
    let s := { s0 with trace := [event 0x130000] }
    s.host = .free ∧ s.trace = [event 0x130000] ∧
      opField 0x130000 ∉ [0x00, 0x01, 0x02, 0x03, 0x04, 0x10, 0x11, 0x12, 0x14] := by decide

theorem witness_ReservedOperandsRefused :
    s0.host = .free ∧
    (opField 0x040001 ∈ [0x00, 0x01, 0x02, 0x04, 0x10, 0x11, 0x12] ∧ bField 0x040001 ≠ 0) ∧
    (opField 0x033504 = 0x03 ∧ ¬ bField 0x033504 ≤ 3) ∧ opField 0x14FFFF = 0x14 := by decide

theorem witness_StepRunsDecodedInstruction :
    let s := { s0 with trace := [event 0x040000] }
    s.host = .free ∧ s.trace = [event 0x040000] ∧ decodeWord (event 0x040000).word = .ok .tickd := by decide

theorem witness_NothingHappensWithoutEvents : State.reset.host = .free ∧ State.reset.trace = [] := by decide

theorem witness_BusyHostIssuesNothing :
    let s := { s0 with host := .holding, trace := [event 0x110000, event 0x140001] }
    s.host ≠ .free ∧ nextEvent s = some (event 0x140001, [event 0x110000]) := by decide

theorem witness_YieldLetsAnEventCome :
    let s := { s0 with host := .clearing [2, 3], sched := [.yield], trace := [event 0x040000] }
    hostReady s = true ∧ wantsYield s = true ∧ nextEvent s = some (event 0x040000, []) ∧
      decodeWord (event 0x040000).word = .ok .tickd := by decide

theorem witness_ResetAbandonsHostOperation :
    let t := { s0 with host := .holding, trace := [event 0x110000] ++ event 0x000000 :: [event 0x010000] }
    let u := { t with host := .clearing [1], sched := [.yield] }
    (t.host = .holding ∧ t.kq = noKey) ∧ (u.host = .clearing [1] ∧ wantsYield u = true) ∧
      ({ t with kq := 0x31, sched := [.yield] }.host = .holding ∧
        wantsYield { t with kq := 0x31, sched := [.yield] } = true) ∧
      hostIssued (event 0x110000) = true ∧ decodeWord (event 0x000000).word = .ok .reset := by decide

/-- For the statements whose hypotheses are normal context, an armed engine, an empty or a full queue. -/
theorem witness_ready :
    s0.ctx = .normal ∧ s0.darm = true ∧ s0.karm = true ∧ s0.kst = .idle ∧ s0.kq = noKey ∧ s0.host = .free ∧
      { s0 with kq := 0x31 }.kq ≠ 0x00 := by decide

theorem witness_InitdEstablishesDisplay : State.reset.ctx = .normal := rfl

theorem witness_InitkEstablishesKeypad : State.reset.ctx = .normal := rfl

theorem witness_BootReachesInitialState :
    State.reset.ctx = .normal ∧ ([.initk, .initd] = [Instr.initd, .initk] ∨ [.initk, .initd] = [Instr.initk, .initd]) := by
  decide

theorem witness_TickdDrivesAndAdvances : { s0 with cur := 3 }.darm = true := rfl

theorem witness_UnarmedTicksRefused : State.reset.darm = false ∧ State.reset.karm = false := by decide

theorem witness_SetcStoresOrIsRefused : s0.ctx = .normal ∧ (3 : Byte) ≤ 3 ∧ ¬ (4 : Byte) ≤ 3 := by decide

theorem witness_UndividedClrdBlanksBuffer :
    let s := { s0 with db := shown, sched := [.slot 3, .slot 0] }
    s.ctx = .normal ∧ .yield ∉ s.sched := by decide

theorem witness_ClrdWritesBlanksInAnyOrder : { s0 with sched := [.slot 3, .yield] }.ctx = .normal := rfl

theorem witness_ClrdCanBeSplitAnywhere :
    let s := { s0 with db := shown, sched := [.slot 1, .slot 3, .yield, .slot 2] }
    let e : Event := ⟨0, .normal, 0x020000, [.slot 1, .slot 3, .yield, .slot 2]⟩
    let u := { s0 with trace := [e, event 0x040000] }
    s.ctx = .normal ∧ (0 : Pos) ∉ [(1 : Pos), 3] ∧
      s.sched = [(1 : Pos), 3].map Choice.slot ++ .yield :: [.slot 2] ∧
      u.host = .free ∧ e.ctx = .normal ∧ decodeWord e.word = .ok .clrd ∧ u.sched = [] ∧
      e.choices = [(1 : Pos), 3].map Choice.slot ++ .yield :: [.slot 2] := by decide

theorem witness_ClrdContinues :
    let s := { s0 with db := shown, host := .clearing [0, 2], sched := [.slot 2, .yield] }
    s.host = .clearing [0, 2] ∧ wantsYield s = false ∧ .yield ∉ { s with sched := [.slot 2] }.sched := by decide

/-- The default instance, which reset holds, meets what the spec asks of the tables. -/
theorem witness_tables : s0.tables.wf = true := defaultTables_wf

theorem witness_UnsupportedCharactersAreBlank :
    defaultTables.wf = true ∧ 0x41 ∉ supportedAlphabet ∧ 0x2F ∉ supportedAlphabet ∧ 0x67 ∉ supportedAlphabet :=
  ⟨defaultTables_wf, by decide, by decide, by decide⟩

theorem witness_PatternBitSevenIsZero : defaultTables.wf = true := defaultTables_wf

theorem witness_SourcePatterns : defaultTables.wf = true := defaultTables_wf

theorem witness_KeytabIsBijective : defaultTables.wf = true := defaultTables_wf

theorem witness_CursorCycles :
    s0.darm = true ∧ (Instr.setc 0x35 2).agent = .host ∧ Instr.setc 0x35 2 ≠ .initd ∧
      ∃ t, exec (.setc 0x35 2) s0 = .next t := ⟨rfl, rfl, by decide, _, rfl⟩

theorem witness_OnePositionActive :
    (∃ t, exec .tickd s0 = .next t) ∧ Instr.initd ≠ .reset ∧ ∃ t, exec .initd s0 = .next t :=
  ⟨⟨_, rfl⟩, by decide, _, rfl⟩

theorem witness_WrittenCharacterAppears :
    s0.darm = true ∧ slotOf 2 = some 2 ∧ (∀ i ∈ [Instr.tickd, .poll, .tickd], leavesSlot 2 i) ∧
      ∃ u t, exec (.setc 0x35 2) s0 = .next u ∧ runInstrs ([.tickd, .poll, .tickd] ++ [.tickd]) u = .next t ∧
        t.en = onehot4 2 := by
  refine ⟨rfl, by decide, ?_, _, _, rfl, rfl, by decide⟩
  intro i hi
  simp only [List.mem_cons, List.not_mem_nil, or_false] at hi
  rcases hi with rfl | rfl | rfl <;> simp [leavesSlot]

theorem witness_DigitPinsFollowPolarity :
    (∃ t, exec .tickd s0 = .next t) ∧ ∃ t, exec .initd s0 = .next t := ⟨⟨_, rfl⟩, _, rfl⟩

theorem witness_KeyDecodeIsExactMatch :
    defaultTables.wf = true ∧ (⟨0x77, 0x64⟩ : KeyRow) ∈ defaultTables.keytab ∧
      ∀ r ∈ defaultTables.keytab, r.code ≠ 0xFF := ⟨defaultTables_wf, by decide, by decide⟩

theorem witness_ScanTakesLowestIndex : defaultTables.wf = true := defaultTables_wf

theorem witness_EchoVectorCarriesTheScan :
    defaultTables.wf = true ∧ defaultTables.keytab[15]? = some ⟨0x77, 0x64⟩ ∧
      defaultTables.keytab[0]? = some ⟨0xEE, 0x31⟩ := ⟨defaultTables_wf, by decide, by decide⟩

theorem witness_TickkInIdle : s0.tables.wf = true ∧ s0.karm = true ∧ s0.kst = .idle :=
  ⟨defaultTables_wf, rfl, rfl⟩

theorem witness_TickkInPressPending :
    let s := { s0 with kst := .pressPending }
    s.tables.wf = true ∧ s.karm = true ∧ s.kst = .pressPending ∧ (0x8000 : BitVec 16) ≠ 0 := ⟨defaultTables_wf, rfl, rfl, by decide⟩

theorem witness_TickkInPressedWaitRelease :
    let s := { s0 with kst := .pressedWaitRelease }
    s.tables.wf = true ∧ s.karm = true ∧ s.kst = .pressedWaitRelease := ⟨defaultTables_wf, rfl, rfl⟩

theorem witness_TickkInReleasePending :
    let s := { s0 with kst := .releasePending }
    s.tables.wf = true ∧ s.karm = true ∧ s.kst = .releasePending := ⟨defaultTables_wf, rfl, rfl⟩

theorem witness_OnePressOneEvent :
    s0.tables.wf = true ∧ s0.karm = true ∧ s0.kst = .idle ∧ s0.kq = noKey ∧ s0.ctx = .normal ∧
      s0.tables.keytab[15]? = some ⟨0x77, 0x64⟩ := ⟨defaultTables_wf, rfl, rfl, rfl, rfl, by decide⟩

theorem witness_OneTickPressIsNoise :
    s0.tables.wf = true ∧ s0.karm = true ∧ s0.kst = .idle ∧ (0x0001 : BitVec 16) ≠ 0 :=
  ⟨defaultTables_wf, rfl, rfl, by decide⟩

/-- The step: a bounce on release. The run: the host drains, and the key bounces on release, before it ends. -/
theorem witness_DroppedPressStaysDropped :
    let s := { s0 with kst := .pressPending, kq := 0x32 }
    let u := { s0 with kst := .releasePending, trace := [event 0x140001] }
    (u.kst = .releasePending ∧ ∃ t, step u = .next t) ∧
      s.tables.wf = true ∧ s.kst = .pressPending ∧ s.kq ≠ noKey ∧ (0x0001 : BitVec 16) ≠ 0 ∧
      .reset ∉ [Instr.poll, .tickk 0, .tickk 1] ∧
      (∀ l' u, l' <+: [Instr.poll, .tickk 0, .tickk 1] → runInstrs (.tickk 1 :: l') s = .next u →
        u.kst ≠ .idle) ∧
      ∃ t, runInstrs (.tickk 1 :: [.poll, .tickk 0, .tickk 1]) s = .next t := by
  refine ⟨⟨rfl, _, rfl⟩, defaultTables_wf, rfl, by decide, by decide, by decide, ?_, _, rfl⟩
  intro l' u hp hu
  simp only [List.prefix_cons_iff, List.prefix_nil] at hp
  rcases hp with rfl | ⟨_, rfl, rfl | ⟨_, rfl, rfl | ⟨_, rfl, rfl⟩⟩⟩ <;> (cases hu; decide)

theorem witness_ConfirmingTickGivesSymbol :
    s0.tables.wf = true ∧ s0.karm = true ∧ s0.kst = .idle ∧ s0.kq = noKey ∧ (0x0400 : BitVec 16) ≠ 0 ∧
      (0x8000 : BitVec 16) ≠ 0 := ⟨defaultTables_wf, rfl, rfl, rfl, by decide, by decide⟩

theorem witness_PollReadsAndClears : { s0 with kq := 0x31 }.ctx = .normal := rfl

theorem witness_SecondPollReturnsNoKey : { s0 with kq := 0x31 }.ctx = .normal := rfl

theorem witness_ReadkDrainsOrHolds :
    s0.ctx = .normal ∧ s0.kq = 0x00 ∧ { s0 with kq := 0x31 }.ctx = .normal ∧ { s0 with kq := 0x31 }.kq ≠ 0x00 := by
  decide

theorem witness_HoldReturnsNothing :
    let s := { s0 with host := .holding, trace := [event 0x140001] }
    s.host = .holding ∧ s.kq = noKey ∧ (∃ t, step s = .next t) ∧
      nextEvent { s with trace := [] } = none ∧ ∃ t, step { s with trace := [] } = .next t :=
  ⟨rfl, by decide, ⟨_, rfl⟩, by decide, _, rfl⟩

theorem witness_HoldEndsWithTheDrain :
    let s := { s0 with host := .holding, kq := 0x64, trace := [event 0x040000] }
    s.host = .holding ∧ s.kq ≠ noKey ∧ wantsYield s = false := by decide

theorem witness_HostOperationsRefusedInTick :
    { s0 with ctx := .interrupt }.ctx = .interrupt ∧ (3 : Byte) ≤ 3 := by decide

theorem witness_OnlyConfirmingTickPublishes :
    let s := { s0 with kst := .pressPending, trace := [event 0x148000] }
    ∃ t, step s = .next t ∧ t.kq ≠ s.kq := ⟨_, rfl, by decide⟩

theorem witness_PendingSymbolIsNeverOverwritten :
    let s := { s0 with kq := 0x31, trace := [event 0x120000] }
    ∃ t, step s = .next t ∧ s.kq ≠ noKey ∧ t.kq ≠ s.kq := ⟨_, rfl, by decide, by decide⟩

theorem witness_OwnershipOfState : ∃ t, exec (.tickk 1) s0 = .next t := ⟨_, rfl⟩

theorem witness_OnlyResetDisarms :
    let s := { s0 with trace := [event 0x000000] }
    ∃ t, step s = .next t ∧ s.darm = true ∧ t.darm = false ∧ s.karm = true ∧ t.karm = false :=
  ⟨_, rfl, rfl, rfl, rfl, rfl⟩

theorem witness_TwoSidesCommute : s0.darm = true ∧ s0.karm = true := by decide

theorem witness_SidesDoNotInterfere :
    let s := { s0 with db := shown, cur := 2 }
    let u := { s0 with kst := .pressPending }
    SameRest s0 s ∧ SameKeypad s0 s ∧ (∃ t, exec (.tickk 1) s0 = .next t) ∧ (∃ t, exec (.tickk 1) s = .next t) ∧
      SameRest s0 u ∧ SameDisplay s0 u ∧ u.sched = s0.sched ∧ (∃ t, exec .tickd s0 = .next t) ∧
      ∃ t, exec .tickd u = .next t :=
  ⟨⟨rfl, rfl, rfl, rfl, rfl⟩, ⟨rfl, rfl, rfl, rfl, rfl⟩, ⟨_, rfl⟩, ⟨_, rfl⟩, ⟨rfl, rfl, rfl, rfl, rfl⟩,
    ⟨rfl, rfl, rfl, rfl, rfl, rfl, rfl⟩, rfl, ⟨_, rfl⟩, _, rfl⟩

theorem witness_DisplayInvariantKept :
    let s := { s0 with en := 0b0100, seg := 0x6D, cur := 3, trace := [event 0x040000] }
    s.darm = true ∧ s.tables.wf = true ∧ DisplayInv s ∧ ∃ t, step s = .next t :=
  ⟨rfl, defaultTables_wf, fun _ => ⟨.inr ⟨2, by decide⟩, by decide, .inr ⟨0x35, by decide⟩⟩, _, rfl⟩

theorem witness_KeypadInvariantKept :
    let s := { s0 with kq := 0x64, kst := .releasePending, trace := [event 0x140000] }
    s.karm = true ∧ s.tables.wf = true ∧ KeypadInv s ∧ ∃ t, step s = .next t :=
  ⟨rfl, defaultTables_wf, fun _ => .inr (by decide), _, rfl⟩

theorem witness_ConfigurationKept :
    let s := { s0 with trace := [event 0x000000] }
    s.tables.wf = true ∧ ∃ t, step s = .next t := ⟨defaultTables_wf, _, rfl⟩

end Sys2Proof.Tests
end

section
/-! The KeyMatrixDecoder: what `decode` answers, in terms of the rows of `KEYTAB` (R110). -/
namespace Sys2Proof.Machine

/-- No key exactly when no row has the pattern as its code (R110). -/
theorem decodeIn_eq_none_iff {rows : List KeyRow} {bits : Byte} :
    decodeIn rows bits = none ↔ ∀ r ∈ rows, r.code ≠ bits := by
  simp [decodeIn]

/-- A decoded symbol comes from a row with exactly that code (R110). -/
theorem mem_of_decodeIn_eq_some {rows : List KeyRow} {bits k : Byte} (h : decodeIn rows bits = some k) :
    ⟨bits, k⟩ ∈ rows := by
  obtain ⟨r, hfind, rfl⟩ := Option.map_eq_some_iff.mp h
  have hcode : r.code = bits := by simpa using List.find?_some hfind
  exact hcode ▸ List.mem_of_find?_eq_some hfind

/-- With pairwise distinct codes every row is found by its code: the row the decoder stops at can be no other
(R66, R110). -/
theorem decodeIn_of_mem {rows : List KeyRow} {r : KeyRow} (hcodes : (rows.map KeyRow.code).Nodup)
    (hr : r ∈ rows) : decodeIn rows r.code = some r.sym := by
  cases hd : decodeIn rows r.code with
  | none => exact absurd rfl (decodeIn_eq_none_iff.mp hd r hr)
  | some k =>
    have hsame : ⟨r.code, k⟩ = r :=
      List.inj_on_of_nodup_map hcodes (mem_of_decodeIn_eq_some hd) hr rfl
    exact congrArg (some ·.sym) hsame

/-- Settles O33: the codes of an admitted `KEYTAB` are pairwise distinct, so decoding is membership of a row. -/
theorem keyDecodeIsExactMatch : Obligations.KeyDecodeIsExactMatch := by
  intro t bits hwf
  obtain ⟨-, hcodes, -, -⟩ := Tables.wf_keytab hwf
  exact ⟨fun r hr => decodeIn_of_mem hcodes hr, decodeIn_eq_none_iff.mpr,
    fun k => ⟨mem_of_decodeIn_eq_some, decodeIn_of_mem (r := ⟨bits, k⟩) hcodes⟩⟩

end Sys2Proof.Machine
end

section
/-! The key event queue: what a consumer takes from it, and the one operation that puts a symbol into it
(R130, R132). -/
namespace Sys2Proof.Machine

/-- Settles O44: in normal context `POLL` is the atomic drain. -/
theorem pollReadsAndClears : Obligations.PollReadsAndClears :=
  fun s hctx => fromHost_normal (drain s) hctx

@[simp] theorem arrive_kq (e : Event) (rest : List Event) (s : State) : (arrive e rest s).kq = s.kq := by
  obtain ⟨_, _, _, h⟩ := arrive_frame e rest s
  rw [h]

@[simp] theorem arrive_kst (e : Event) (rest : List Event) (s : State) : (arrive e rest s).kst = s.kst := by
  obtain ⟨_, _, _, h⟩ := arrive_frame e rest s
  rw [h]

@[simp] theorem arrive_karm (e : Event) (rest : List Event) (s : State) : (arrive e rest s).karm = s.karm := by
  obtain ⟨_, _, _, h⟩ := arrive_frame e rest s
  rw [h]

@[simp] theorem arrive_tables (e : Event) (rest : List Event) (s : State) :
    (arrive e rest s).tables = s.tables := by
  obtain ⟨_, _, _, h⟩ := arrive_frame e rest s
  rw [h]

/-- The host's own step leaves the queue alone or empties it (R93, R133). -/
theorem hostStep_kq (s : State) : (hostStep s).kq = s.kq ∨ (hostStep s).kq = noKey := by
  obtain ⟨_, _, _, _, _, h, hkq⟩ := hostStep_frame s
  rw [h]
  exact hkq

/-- A keypad tick publishes only in PRESS_PENDING, with an active key and an empty queue (R115, R130). -/
theorem nextKq_ne {k : DebounceState} {sym : Option Byte} {q : Byte} (h : nextKq k sym q ≠ q) :
    k = .pressPending ∧ q = noKey ∧ sym = some (nextKq k sym q) := by
  cases k with
  | idle | pressedWaitRelease | releasePending => exact absurd rfl h
  | pressPending =>
    cases sym with
    | none => exact absurd rfl h
    | some c =>
      have hempty : q = noKey := by
        by_contra hfull
        exact h (if_neg hfull)
      exact ⟨rfl, hempty, congrArg some (if_pos hempty).symm⟩

/-- Only a `TICKK` that confirms a press in an empty queue, with its own scan's symbol, and a `RESET` put a byte
into the queue: every other operation leaves it alone or empties it (R130, R30). -/
theorem exec_kq {i : Instr} {s t : State} (h : exec i s = .next t) :
    t.kq = s.kq ∨ t.kq = noKey ∨
    (∃ v, i = .tickk v ∧ s.karm = true ∧ s.kst = .pressPending ∧ s.kq = noKey ∧ scan s.tables v = some t.kq) ∨
    i = .reset := by
  rcases exec_next_cases h with ⟨hreset, -⟩ | ⟨-, -, rfl⟩ | ⟨-, -, rfl⟩ | ⟨c, p, q, -, -, -, rfl⟩ |
    ⟨-, -, rfl⟩ | ⟨-, -, rfl⟩ | ⟨-, -, rfl⟩ | ⟨-, -, rfl⟩ | ⟨v, htick, hkarm, rfl⟩
  · exact .inr (.inr (.inr hreset))
  · exact .inl rfl
  · exact .inl rfl
  · exact .inl rfl
  · exact .inl rfl
  · exact .inr (.inl rfl)
  · exact .inr (.inl rfl)
  · by_cases hpending : keyPending s
    · exact .inr (.inl (by simp [hpending]))
    · exact .inl (by simp [hpending])
  · rw [inHandler_debounceTick]
    by_cases hsame : nextKq s.kst (scan s.tables v) s.kq = s.kq
    · exact .inl hsame
    · obtain ⟨hkst, hempty, hscan⟩ := nextKq_ne hsame
      exact .inr (.inr (.inl ⟨v, htick, hkarm, hkst, hempty, hscan⟩))

/-- Settles O50: the host's own step at most empties the queue, and an operation writes a byte into it only as
`exec_kq` says; the arrival of its event changes neither the queue nor what the tick reads. -/
theorem onlyConfirmingTickPublishes : Obligations.OnlyConfirmingTickPublishes := by
  intro s t hstep hne
  rcases step_next_cases hstep with ⟨cs, -, rfl⟩ | ⟨-, -, rfl⟩ | ⟨i, e, rest, cs, u, hexec, hdec, hnext, rfl⟩
  · exact .inl ((hostStep_kq _).resolve_left hne)
  · exact absurd rfl hne
  · have hu := exec_kq hexec
    simp only [arrive_kq, arrive_kst, arrive_karm, arrive_tables] at hu
    rcases hu with hsame | hempty | ⟨v, rfl, hpublish⟩ | rfl
    · exact absurd hsame hne
    · exact .inl hempty
    · exact .inr (.inl ⟨e, rest, v, hnext, hdec, hpublish⟩)
    · exact .inr (.inr ⟨e, rest, hnext, hdec⟩)

end Sys2Proof.Machine
end

section
/-! The decoder inverts the encoder: a word decodes to an operation exactly when it is that operation's word
(R72 to R77). -/
namespace Sys2Proof.Machine

/-- A word is packed from its own three fields (R72). -/
theorem packWord_fields (w : Word24) : packWord (opField w) (aField w) (bField w) = w := by
  apply BitVec.eq_of_getLsbD_eq
  intro j hj
  rw [packWord_getLsbD]
  interval_cases j <;> simp [opField, aField, bField]

/-- The two operand fields of a `TICKK` word carry the whole echo vector (R75). -/
@[simp] theorem eField_packWord (op : Byte) (e : BitVec 16) :
    eField (packWord op (e.extractLsb' 8 8) (e.extractLsb' 0 8)) = e := by
  apply BitVec.eq_of_getLsbD_eq
  intro j hj
  simp only [eField, BitVec.getLsbD_extractLsb', packWord_getLsbD]
  interval_cases j <;> simp

/-- The high and the low byte of the echo vector are the operand fields (R75). -/
theorem extract_eField (w : Word24) :
    (eField w).extractLsb' 8 8 = aField w ∧ (eField w).extractLsb' 0 8 = bField w := by
  constructor <;>
  · apply BitVec.eq_of_getLsbD_eq
    intro j hj
    interval_cases j <;> simp [eField, aField, bField]

/-- Settles O1: a format N word is one fixed number; in the other formats each operand field reads back. -/
theorem decodeEncodeRoundTrip : Obligations.DecodeEncodeRoundTrip := by
  intro i
  cases i with
  | reset | initd | clrd | tickd | initk | poll | readk => rfl
  | setc ch position => simp [encodeWord, decodeWord]
  | tickk e => simp [encodeWord, decodeWord]

/-- A format N word that decodes has both operand fields zero (R77). -/
theorem formatN_eq_ok {i j : Instr} {w : Word24} (h : formatN i w = .ok j) :
    j = i ∧ w = packWord (opField w) 0 0 := by
  unfold formatN at h
  split at h
  · rename_i hzero
    obtain ⟨ha, hb⟩ := hzero
    refine ⟨(Except.ok.inj h).symm, ?_⟩
    conv_lhs => rw [← packWord_fields w, ha, hb]
  · cases h

/-- The decoder looks `op` up by its number (R72, R73). -/
theorem opField_of_toNat {w : Word24} {n : Nat} (h : (opField w).toNat = n) : opField w = BitVec.ofNat 8 n := by
  simp [← h]

/-- Settles O2: the decoder fixes `op`, and a format fixes or reads each of the other bits. -/
theorem encodeDecodeRoundTrip : Obligations.EncodeDecodeRoundTrip := by
  intro w i h
  have hN : ∀ {j : Instr} {n : Nat}, (opField w).toNat = n → formatN j w = .ok i →
      encodeWord j = packWord (BitVec.ofNat 8 n) 0 0 → encodeWord i = w := by
    intro j n hop hj henc
    obtain ⟨rfl, hw⟩ := formatN_eq_ok hj
    rw [henc, ← opField_of_toNat hop, ← hw]
  unfold decodeWord at h
  split at h <;> rename_i hop
  · exact hN hop h rfl
  · exact hN hop h rfl
  · exact hN hop h rfl
  · cases h
    have hop : opField w = 0x03 := opField_of_toNat hop
    rw [encodeWord, ← hop, packWord_fields]
  · exact hN hop h rfl
  · exact hN hop h rfl
  · exact hN hop h rfl
  · exact hN hop h rfl
  · cases h
    have hop : opField w = 0x14 := opField_of_toNat hop
    obtain ⟨ha, hb⟩ := extract_eField w
    rw [encodeWord, ha, hb, ← hop, packWord_fields]
  · cases h

/-- A word decodes to an operation exactly when it is the operation's word. -/
theorem decodeWord_eq_ok_iff {w : Word24} {i : Instr} : decodeWord w = .ok i ↔ w = encodeWord i :=
  ⟨fun h => (encodeDecodeRoundTrip w i h).symm, fun h => h ▸ decodeEncodeRoundTrip i⟩

/-- The word of every operation is covered by the row of its mnemonic (R73). -/
theorem opcodeRow_covers_encodeWord : ∀ i : Instr, Laws.OpcodeRow.Statement i
  | .reset => Laws.OpcodeRow.reset
  | .initd => Laws.OpcodeRow.initd
  | .clrd => Laws.OpcodeRow.clrd
  | .setc ch position => Laws.OpcodeRow.setc ch position
  | .tickd => Laws.OpcodeRow.tickd
  | .initk => Laws.OpcodeRow.initk
  | .poll => Laws.OpcodeRow.poll
  | .readk => Laws.OpcodeRow.readk
  | .tickk e => Laws.OpcodeRow.tickk e

/-- A word with the fixed bits of a row that fixes every bit is the row's word (R73). -/
theorem eq_of_covers_full {m : String} {p w : Word24}
    (h : OpcodeRow.covers ⟨m, p, 0xFFFFFF⟩ w = true) : w = p := by
  have hw : w &&& BitVec.allOnes 24 = p := beq_iff_eq.mp h
  rwa [BitVec.and_allOnes] at hw

/-- A word with the fixed bits of a row that fixes `op` alone has that `op` (R73). -/
theorem opField_of_covers_op {m : String} {op : Byte} {w : Word24}
    (h : OpcodeRow.covers ⟨m, packWord op 0 0, 0xFF0000⟩ w = true) : opField w = op := by
  have hw : w &&& (0xFF0000 : Word24) = packWord op 0 0 := by simpa [OpcodeRow.covers] using h
  rw [← packWord_fields w, Laws.OpcodeRow.packWord_masked] at hw
  simpa using congrArg opField hw

/-- Settles O3: each decoded word is its operation's word, which the operation's row covers; and a row's fixed bits
leave the operand fields alone or none at all. -/
theorem decoderAgreesWithOpcodeTable : Obligations.DecoderAgreesWithOpcodeTable := by
  intro w
  refine ⟨fun i h => decodeWord_eq_ok_iff.mp h ▸ opcodeRow_covers_encodeWord i, fun r hr hcov => ?_⟩
  simp only [opcodeTable, List.mem_cons, List.not_mem_nil, or_false] at hr
  rcases hr with rfl | rfl | rfl | rfl | rfl | rfl | rfl | rfl | rfl
  · exact ⟨.reset, decodeWord_eq_ok_iff.mpr (eq_of_covers_full hcov), rfl⟩
  · exact ⟨.initd, decodeWord_eq_ok_iff.mpr (eq_of_covers_full hcov), rfl⟩
  · exact ⟨.clrd, decodeWord_eq_ok_iff.mpr (eq_of_covers_full hcov), rfl⟩
  · have hop : opField w = 0x03 := opField_of_covers_op hcov
    exact ⟨.setc (aField w) (bField w), by simp [decodeWord, hop], rfl⟩
  · exact ⟨.tickd, decodeWord_eq_ok_iff.mpr (eq_of_covers_full hcov), rfl⟩
  · exact ⟨.initk, decodeWord_eq_ok_iff.mpr (eq_of_covers_full hcov), rfl⟩
  · exact ⟨.poll, decodeWord_eq_ok_iff.mpr (eq_of_covers_full hcov), rfl⟩
  · exact ⟨.readk, decodeWord_eq_ok_iff.mpr (eq_of_covers_full hcov), rfl⟩
  · have hop : opField w = 0x14 := opField_of_covers_op hcov
    exact ⟨.tickk (eField w), by simp [decodeWord, hop], rfl⟩

/-- Settles O4: each word is the encoding of the operation beside it. -/
theorem specWordsDecode : Obligations.SpecWordsDecode :=
  ⟨decodeEncodeRoundTrip .reset, decodeEncodeRoundTrip .initd, decodeEncodeRoundTrip .clrd,
    decodeEncodeRoundTrip (.setc 0x35 2), decodeEncodeRoundTrip .tickd, decodeEncodeRoundTrip .initk,
    decodeEncodeRoundTrip .poll, decodeEncodeRoundTrip .readk, decodeEncodeRoundTrip (.tickk 0x0001),
    decodeEncodeRoundTrip (.tickk 0x0000)⟩

/-- A word whose `op` is not in the table of R73 decodes to no operation (R76). -/
theorem decodeWord_reservedOpcode {w : Word24}
    (h : opField w ∉ [0x00, 0x01, 0x02, 0x03, 0x04, 0x10, 0x11, 0x12, 0x14]) :
    decodeWord w = .error (.reservedOpcode (opField w)) := by
  unfold decodeWord
  split
  case h_10 => rfl
  all_goals
    rename_i hop
    simp [opField_of_toNat hop] at h

/-- A format N operation with a nonzero operand field decodes to none (R77). -/
theorem formatN_nonzero {w : Word24} (i : Instr) (h : aField w ≠ 0 ∨ bField w ≠ 0) :
    formatN i w = .error (.reservedOperand w) := by
  have hnot : ¬ (aField w = 0 ∧ bField w = 0) := fun hz => h.elim (· hz.1) (· hz.2)
  rw [formatN, if_neg hnot]

/-- A word with a format N `op` and a nonzero operand field decodes to no operation (R77). -/
theorem decodeWord_reservedOperand {w : Word24}
    (hop : opField w ∈ [0x00, 0x01, 0x02, 0x04, 0x10, 0x11, 0x12]) (h : aField w ≠ 0 ∨ bField w ≠ 0) :
    decodeWord w = .error (.reservedOperand w) := by
  simp only [List.mem_cons, List.not_mem_nil, or_false] at hop
  rcases hop with hop | hop | hop | hop | hop | hop | hop <;>
    simp [decodeWord, hop, formatN_nonzero _ h]

end Sys2Proof.Machine
end

section
/-! How the next event is chosen and run: by a free host in the order of the trace, by a busy host past its own later
events (R49, R133, R170). -/
namespace Sys2Proof.Machine

/-- A free host has no step of its own (R49). -/
theorem hostReady_of_free {s : State} (hfree : s.host = .free) : hostReady s = false := by
  simp [hostReady, hfree]

/-- A free host takes the events in order (R49). -/
theorem nextEvent_of_free {s : State} {e : Event} {es : List Event} (hfree : s.host = .free)
    (htrace : s.trace = e :: es) : nextEvent s = some (e, es) := by
  simp [nextEvent, hfree, htrace]

/-- A free host takes the event in front and runs the operation its word decodes to (R49). -/
theorem step_of_free_ok {s : State} {e : Event} {es : List Event} {i : Instr} (hfree : s.host = .free)
    (htrace : s.trace = e :: es) (hdec : decodeWord e.word = .ok i) :
    step s = finish (exec i (arrive e es (beginStep s))) := by
  rw [step_of_event (hostReady_of_free hfree) (nextEvent_of_free hfree htrace), hdec]

/-- The word a free host meets is refused when it decodes to no operation (R76, R77). -/
theorem step_of_free_error {s : State} {e : Event} {es : List Event} {err : DecodeError} (hfree : s.host = .free)
    (htrace : s.trace = e :: es) (hdec : decodeWord e.word = .error err) : step s = .refused (refusalOf err) := by
  rw [step_of_event (hostReady_of_free hfree) (nextEvent_of_free hfree htrace), hdec]

/-- A position above 3 is refused in either context, before anything is written (R94, R143). -/
theorem exec_setc_illegal {position : Byte} (ch : Byte) (s : State) (h : ¬ position ≤ 3) :
    exec (.setc ch position) s = .refused (.positionOutOfRange position) := by
  simp [exec, execSetc, slotOf_illegal h]

/-- Settles O7: a free host takes the event in front and runs what it decodes to. -/
theorem stepRunsDecodedInstruction : Obligations.StepRunsDecodedInstruction :=
  fun _ _ _ _ hfree htrace hdec => step_of_free_ok hfree htrace hdec

/-- Settles O5: the decoder names the reserved `op`, and the step passes its refusal on. -/
theorem reservedOpcodeRefused : Obligations.ReservedOpcodeRefused := by
  intro s e es hfree htrace hop
  have hdec := decodeWord_reservedOpcode hop
  exact ⟨hdec, step_of_free_error hfree htrace hdec⟩

/-- Settles O6: format N is refused by the decoder, format C by `SETC` itself, format E never. -/
theorem reservedOperandsRefused : Obligations.ReservedOperandsRefused := by
  intro s e es hfree htrace
  refine ⟨fun hop hfield => step_of_free_error hfree htrace (decodeWord_reservedOperand hop hfield),
    fun hop => ?_, fun hop => by simp [decodeWord, hop]⟩
  have hdec : decodeWord e.word = .ok (.setc (aField e.word) (bField e.word)) := by simp [decodeWord, hop]
  refine ⟨hdec, fun hillegal => ?_⟩
  rw [step_of_free_ok hfree htrace hdec, exec_setc_illegal _ _ hillegal]
  rfl

/-- Settles O8: the placed event is in front of a free host, brings no time and no choices, and its word decodes. -/
theorem placedWordRunsNext : Obligations.PlacedWordRunsNext := by
  intro s i
  have hword : s.withFetchWord 24 (encodeWord i).toNat = placeWord (encodeWord i) s := by
    rw [State.withFetchWord, Nat.mod_eq_of_lt (encodeWord i).isLt, BitVec.ofNat_toNat, BitVec.setWidth_eq]
  have hdec := decodeEncodeRoundTrip i
  rw [hword, step_of_free_ok (e := ⟨0, .normal, encodeWord i, []⟩) (es := s.trace) rfl rfl hdec]
  simp [arrive, placeWord, beginStep]

/-- Settles O9: a free host has no step of its own, and an empty trace no event. -/
theorem nothingHappensWithoutEvents : Obligations.NothingHappensWithoutEvents := by
  intro s hfree htrace
  simp [step, nextMove, nextEvent, hostReady, beginStep, hfree, htrace]

/-- The split of a trace is at its first event that is not the host's, and only there. -/
theorem splitOther_eq_some_iff {l before after : List Event} {e : Event} :
    splitOther l = some (before, e, after) ↔
      l = before ++ e :: after ∧ (∀ x ∈ before, hostIssued x = true) ∧ hostIssued e = false := by
  induction l generalizing before with
  | nil => simp [splitOther]
  | cons x xs ih =>
    cases hx : hostIssued x with
    | false =>
      rw [splitOther, if_neg (by simp [hx])]
      constructor
      · intro h
        cases h
        exact ⟨rfl, by simp, hx⟩
      · rintro ⟨hl, hbefore, -⟩
        cases before with
        | nil => cases hl; rfl
        | cons b bs => cases hl; simp [hx] at hbefore
    | true =>
      have hcons : splitOther (x :: xs) = (splitOther xs).map (fun p => (x :: p.1, p.2)) := by
        rw [splitOther, if_pos hx]
        cases splitOther xs <;> rfl
      rw [hcons, Option.map_eq_some_iff]
      constructor
      · rintro ⟨⟨b, p⟩, hsplit, heq⟩
        cases heq
        obtain ⟨rfl, hb, he⟩ := ih.mp hsplit
        exact ⟨rfl, by simpa [hx] using hb, he⟩
      · rintro ⟨hl, hbefore, he⟩
        cases before with
        | nil => cases hl; simp [hx] at he
        | cons b bs =>
          cases hl
          exact ⟨(bs, e, after), ih.mpr ⟨rfl, fun y hy => hbefore y (List.mem_cons_of_mem _ hy), he⟩, rfl⟩

/-- A busy host lets the first event that is not its own come (R133). -/
theorem nextEvent_of_busy {s : State} (hbusy : s.host ≠ .free) :
    nextEvent s = (splitOther s.trace).map
      (fun p => (p.2.1, if isResetEvent p.2.1 then p.2.2 else p.1 ++ p.2.2)) := by
  unfold nextEvent
  cases hh : s.host with
  | free => exact absurd hh hbusy
  | clearing pending => cases splitOther s.trace <;> rfl
  | holding => cases splitOther s.trace <;> rfl

/-- Settles O10: the event a busy host lets come is where its trace splits. -/
theorem busyHostIssuesNothing : Obligations.BusyHostIssuesNothing := by
  intro s e rest hbusy hnext
  rw [nextEvent_of_busy hbusy, Option.map_eq_some_iff] at hnext
  obtain ⟨⟨before, x, after⟩, hsplit, hp⟩ := hnext
  obtain ⟨-, -, hother⟩ := splitOther_eq_some_iff.mp hsplit
  cases hp
  exact hother

/-- Settles O11: the `yield` is served, and the event runs before the host's own step. -/
theorem yieldLetsAnEventCome : Obligations.YieldLetsAnEventCome := by
  intro s e rest i hready hyield hnext hdec
  have hserved : dropYield (beginStep s) = { s with ret := none, sched := s.sched.tail } := if_pos hyield
  simp [step, nextMove, hready, hyield, hnext, moveEvent, hdec, hserved]

@[simp] theorem arrive_trace (e : Event) (rest : List Event) (s : State) : (arrive e rest s).trace = rest := by
  obtain ⟨_, _, _, h⟩ := arrive_frame e rest s
  rw [h]

@[simp] theorem arrive_ret (e : Event) (rest : List Event) (s : State) : (arrive e rest s).ret = s.ret := by
  obtain ⟨_, _, _, h⟩ := arrive_frame e rest s
  rw [h]

@[simp] theorem arrive_ctx (e : Event) (rest : List Event) (s : State) : (arrive e rest s).ctx = e.ctx := by
  obtain ⟨_, _, _, h⟩ := arrive_frame e rest s
  rw [h]

@[simp] theorem arrive_host (e : Event) (rest : List Event) (s : State) : (arrive e rest s).host = s.host := by
  obtain ⟨_, _, _, h⟩ := arrive_frame e rest s
  rw [h]

@[simp] theorem arrive_darm (e : Event) (rest : List Event) (s : State) : (arrive e rest s).darm = s.darm := by
  obtain ⟨_, _, _, h⟩ := arrive_frame e rest s
  rw [h]

@[simp] theorem arrive_db (e : Event) (rest : List Event) (s : State) : (arrive e rest s).db = s.db := by
  obtain ⟨_, _, _, h⟩ := arrive_frame e rest s
  rw [h]

@[simp] theorem arrive_sched (e : Event) (rest : List Event) (s : State) :
    (arrive e rest s).sched = s.sched ++ e.choices := by
  obtain ⟨_, _, _, h⟩ := arrive_frame e rest s
  rw [h]

/-- What a busy host lets come when the first event not its own is a `RESET`: that, and the events before it are
dropped (R170, log entry 5). -/
theorem nextEvent_of_busy_reset {s : State} {e : Event} {before after : List Event} (hbusy : s.host ≠ .free)
    (htrace : s.trace = before ++ e :: after) (hbefore : ∀ x ∈ before, hostIssued x = true)
    (hdec : decodeWord e.word = .ok .reset) : nextEvent s = some (e, after) := by
  have hother : hostIssued e = false := by
    unfold hostIssued
    cases e.ctx <;> simp [hdec, Instr.agent]
  have hsplit := splitOther_eq_some_iff.mpr ⟨htrace, hbefore, hother⟩
  simp [nextEvent_of_busy hbusy, hsplit, isResetEvent, hdec]

/-- The host is between two atomic steps: either it waits, or it lets another agent's event come first. -/
theorem step_of_interrupted {s : State} {e : Event} {rest : List Event} {i : Instr}
    (hlet : hostReady s = true → wantsYield s = true) (hnext : nextEvent s = some (e, rest))
    (hdec : decodeWord e.word = .ok i) :
    ∃ cs, step s = finish (exec i (arrive e rest { beginStep s with sched := cs })) := by
  cases hready : hostReady s with
  | false => exact ⟨s.sched, by rw [step_of_event hready hnext, hdec]; rfl⟩
  | true => exact ⟨s.sched.tail, yieldLetsAnEventCome s e rest i hready (hlet hready) hnext hdec⟩

/-- Settles O12: the events before the `RESET` are the host's, so the `RESET` comes next, and runs as it would from
any state. -/
theorem resetAbandonsHostOperation : Obligations.ResetAbandonsHostOperation := by
  intro s e before after hinside htrace hbefore hdec
  have hbusy : s.host ≠ .free := by
    rcases hinside with ⟨hhold, -⟩ | ⟨pending, hclear, -⟩
    · simp [hhold]
    · simp [hclear]
  have hlet : hostReady s = true → wantsYield s = true := by
    rcases hinside with ⟨hhold, hempty | hyield⟩ | ⟨pending, -, hyield⟩
    · simp [hostReady, hhold, hempty]
    · exact fun _ => hyield
    · exact fun _ => hyield
  obtain ⟨cs, hstep⟩ := step_of_interrupted hlet (nextEvent_of_busy_reset hbusy htrace hbefore hdec) hdec
  exact ⟨_, hstep, rfl, arrive_trace _ _ _, rfl, rfl, arrive_ret _ _ _⟩

end Sys2Proof.Machine
end

section
/-! Operations performed one after another, and the states `RESET`, `INITD` and `INITK` establish (R30, R31, R32,
R170, R172). -/
namespace Sys2Proof.Machine
open Sys2Proof.Safety

/-- An operation that answers hands its state to the next one. -/
theorem runInstrs_cons_of_next {i : Instr} {s u : State} (is : List Instr) (h : exec i s = .next u) :
    runInstrs (i :: is) s = runInstrs is u := by
  rw [runInstrs, h]

/-- A sequence answers a state exactly when its first operation answers one from which the others do. -/
theorem runInstrs_cons_eq_next {i : Instr} {is : List Instr} {s t : State} :
    runInstrs (i :: is) s = .next t ↔ ∃ u, exec i s = .next u ∧ runInstrs is u = .next t := by
  rw [runInstrs]
  cases exec i s <;> simp

/-- A sequence in two parts answers exactly when the first part answers a state from which the second does. -/
theorem runInstrs_append_eq_next {is js : List Instr} {s t : State} :
    runInstrs (is ++ js) s = .next t ↔ ∃ u, runInstrs is s = .next u ∧ runInstrs js u = .next t := by
  induction is generalizing s with
  | nil => simp [runInstrs]
  | cons i is ih =>
    simp only [List.cons_append, runInstrs_cons_eq_next, ih]
    exact ⟨fun ⟨u, hi, v, hv, ht⟩ => ⟨v, ⟨u, hi, hv⟩, ht⟩, fun ⟨v, ⟨u, hi, hv⟩, ht⟩ => ⟨u, hi, v, hv, ht⟩⟩

/-- `RESET` completes from every state (R170). -/
theorem exec_reset (s : State) : exec .reset s = .next (resetBlock s) := rfl

/-- `INITD` completes in normal context (R92). -/
theorem exec_initd {s : State} (h : s.ctx = .normal) : exec .initd s = .next (initDisplay s) := fromHost_normal _ h

/-- `INITK` completes in normal context (R118). -/
theorem exec_initk {s : State} (h : s.ctx = .normal) : exec .initk s = .next (initKeypad s) := fromHost_normal _ h

/-- Settles O13: by the equation of `RESET`. -/
theorem resetDisarmsEverything : Obligations.ResetDisarmsEverything :=
  fun s => ⟨resetBlock s, exec_reset s, rfl, rfl, rfl, rfl, rfl, rfl, rfl, rfl, rfl, rfl⟩

/-- Settles O14: the arm and pending bits of the reset state. -/
theorem powerOnBits : Obligations.PowerOnBits := ⟨rfl, rfl, rfl, rfl⟩

/-- Settles O15: by the equation of `INITD`. -/
theorem initdEstablishesDisplay : Obligations.InitdEstablishesDisplay := fun _ hctx => exec_initd hctx

/-- Settles O16: by the equation of `INITK`. -/
theorem initkEstablishesKeypad : Obligations.InitkEstablishesKeypad := fun _ hctx => exec_initk hctx

/-- Settles O17: each of the three operations keeps normal context, and what each init writes neither the other nor
the free values of `RESET` touch. -/
theorem bootReachesInitialState : Obligations.BootReachesInitialState := by
  intro s hctx l hl
  have hreset : (resetBlock s).ctx = .normal := hctx
  rcases hl with rfl | rfl
  · refine ⟨initKeypad (initDisplay (resetBlock s)), ?_, rfl, rfl, rfl, rfl, rfl, rfl, rfl, rfl, rfl, rfl, rfl, rfl⟩
    have hinit : (initDisplay (resetBlock s)).ctx = .normal := hctx
    rw [runInstrs_cons_of_next _ (exec_reset s), runInstrs_cons_of_next _ (exec_initd hreset),
      runInstrs_cons_of_next _ (exec_initk hinit), runInstrs]
  · refine ⟨initDisplay (initKeypad (resetBlock s)), ?_, rfl, rfl, rfl, rfl, rfl, rfl, rfl, rfl, rfl, rfl, rfl, rfl⟩
    have hinit : (initKeypad (resetBlock s)).ctx = .normal := hctx
    rw [runInstrs_cons_of_next _ (exec_reset s), runInstrs_cons_of_next _ (exec_initk hreset),
      runInstrs_cons_of_next _ (exec_initd hinit), runInstrs]

end Sys2Proof.Machine
end

section
/-! The display refresh: what a `TICKD` drives, the cursor's cycle, and a written character on its way to the pins
(R13, R51, R64, R91, R95, R96). -/
namespace Sys2Proof.Machine
open Sys2Proof.Safety

/-- `TICKD` while armed completes (R91, R99). -/
theorem exec_tickd {s : State} (h : s.darm = true) : exec .tickd s = .next (inHandler refreshTick s) := by
  simp [exec, execTickd, h]

/-- A tick that completes found its engine armed, and is the handler (R148). -/
theorem exec_tickd_eq_next {s t : State} :
    exec .tickd s = .next t ↔ s.darm = true ∧ t = inHandler refreshTick s := by
  by_cases h : s.darm = true <;> simp [exec, execTickd, h, eq_comm]

/-- `TICKD` while not armed is refused (R148). -/
theorem exec_tickd_unarmed {s : State} (h : s.darm = false) : exec .tickd s = .refused .displayUnarmed := by
  simp [exec, execTickd, h]

/-- `TICKK` while not armed is refused (R148). -/
theorem exec_tickk_unarmed {s : State} (e : BitVec 16) (h : s.karm = false) :
    exec (.tickk e) s = .refused .keypadUnarmed := by
  simp [exec, execTickk, h]

/-- Settles O19: the arm bit is the guard of each tick. -/
theorem unarmedTicksRefused : Obligations.UnarmedTicksRefused :=
  fun _ => ⟨exec_tickd_unarmed, fun h e => exec_tickk_unarmed e h⟩

/-- The four one-hot values (R64). -/
theorem onehot4_eq (i : Pos) :
    onehot4 i = if i = 0 then 0b0001 else if i = 1 then 0b0010 else if i = 2 then 0b0100 else 0b1000 := by
  revert i; decide

/-- Bit `j` of `onehot4(i)` is set exactly for `j = i` (R64). -/
theorem onehot4_getLsbD (i : Pos) (j : Nat) : (onehot4 i).getLsbD j = decide (j = i.toNat) := by
  have hi : i.toNat < 4 := i.isLt
  rw [onehot4, BitVec.getLsbD_shiftLeft, BitVec.getLsbD_one]
  grind

/-- Two positions with the same one-hot value are the same (R64). -/
theorem onehot4_inj {i j : Pos} : onehot4 i = onehot4 j ↔ i = j := by
  revert i j; decide

/-- The cursor's next value, as a number (R79). -/
theorem pos_add_one (i : Pos) : i + 1 = BitVec.ofNat 2 ((i.toNat + 1) % 4) := by
  revert i; decide

/-- Four steps of the cursor, modulo 4 (R95). -/
theorem pos_four_steps (i : Pos) :
    i + 1 + 1 = i + 2 ∧ i + 2 + 1 = i + 3 ∧ i + 3 + 1 = i := by
  revert i; decide

/-- Settles O18: the handler's equation, with the one-hot value and the next cursor written out. -/
theorem tickdDrivesAndAdvances : Obligations.TickdDrivesAndAdvances := by
  intro s harm
  rw [exec_tickd harm, inHandler_refreshTick, ← onehot4_eq, ← pos_add_one]

/-- Only the host's `INITD`, `TICKD` and `RESET` write the cursor and the display's outputs (R22). -/
theorem exec_display_outputs {i : Instr} {s t : State} (h : exec i s = .next t) :
    t.cur = s.cur ∧ t.seg = s.seg ∧ t.en = s.en ∨ i = .reset ∨ i = .initd ∧ t = initDisplay s ∨
      i = .tickd ∧ t = inHandler refreshTick s := by
  rcases exec_next_cases h with ⟨hi, -⟩ | ⟨hi, -, ht⟩ | ⟨-, -, rfl⟩ | ⟨c, p, q, -, -, -, rfl⟩ |
    ⟨hi, -, ht⟩ | ⟨-, -, rfl⟩ | ⟨-, -, rfl⟩ | ⟨-, -, rfl⟩ | ⟨v, -, -, rfl⟩
  · exact .inr (.inl hi)
  · exact .inr (.inr (.inl ⟨hi, ht⟩))
  · exact .inl ⟨rfl, rfl, rfl⟩
  · exact .inl ⟨rfl, rfl, rfl⟩
  · exact .inr (.inr (.inr ⟨hi, ht⟩))
  · exact .inl ⟨rfl, rfl, rfl⟩
  · exact .inl ⟨rfl, rfl, rfl⟩
  · by_cases hpending : keyPending s <;> simp [hpending]
  · simp [inHandler_debounceTick]

/-- A tick's part of the cursor's cycle: it drives the cursor's position, and moves the cursor one on (R91). -/
theorem exec_tickd_cycle {s : State} (h : s.darm = true) :
    ∃ t, exec .tickd s = .next t ∧ t.darm = true ∧ t.en = onehot4 s.cur ∧ t.cur = s.cur + 1 :=
  ⟨_, exec_tickd h, h, rfl, rfl⟩

/-- Settles O28: four handlers in a row; and of the operations that write the cursor only `INITD` is the host's. -/
theorem cursorCycles : Obligations.CursorCycles := by
  refine ⟨fun s harm => ?_, fun i s t hhost hinitd hexec => ?_⟩
  · obtain ⟨h2, h3, h4⟩ := pos_four_steps s.cur
    obtain ⟨t₁, hexec₁, harm₁, hen₁, hcur₁⟩ := exec_tickd_cycle harm
    obtain ⟨t₂, hexec₂, harm₂, hen₂, hcur₂⟩ := exec_tickd_cycle harm₁
    obtain ⟨t₃, hexec₃, harm₃, hen₃, hcur₃⟩ := exec_tickd_cycle harm₂
    obtain ⟨t₄, hexec₄, -, hen₄, hcur₄⟩ := exec_tickd_cycle harm₃
    rw [hcur₁, h2] at hcur₂
    rw [hcur₂, h3] at hcur₃
    rw [hcur₃, h4] at hcur₄
    exact ⟨t₁, t₂, t₃, t₄, hexec₁, hexec₂, hexec₃, hexec₄, hen₁, hcur₁ ▸ hen₂, hcur₂ ▸ hen₃, hcur₃ ▸ hen₄, hcur₄⟩
  · rcases exec_display_outputs hexec with ⟨hcur, -, -⟩ | rfl | ⟨rfl, -⟩ | ⟨rfl, -⟩
    · exact hcur
    · cases hhost
    · exact absurd rfl hinitd
    · cases hhost

/-- A one-hot value has exactly one bit set (R96). -/
theorem onehot4_one_bit (i : Pos) : ∃ k, k < 4 ∧ ∀ j, (onehot4 i).getLsbD j = decide (j = k) :=
  ⟨i.toNat, i.isLt, onehot4_getLsbD i⟩

/-- Settles O29: a tick writes the one-hot value of the cursor, `INITD` writes 0, and no other operation but `RESET`
writes `EN`. -/
theorem onePositionActive : Obligations.OnePositionActive := by
  refine ⟨fun s t hexec => ?_, fun i s t hreset hexec => ?_⟩
  · obtain ⟨-, rfl⟩ := exec_tickd_eq_next.mp hexec
    exact onehot4_one_bit s.cur
  · rcases exec_display_outputs hexec with ⟨-, -, hen⟩ | hi | ⟨-, rfl⟩ | ⟨-, rfl⟩
    · exact .inl hen
    · exact absurd hi hreset
    · exact .inr (.inl rfl)
    · exact .inr (.inr (onehot4_one_bit s.cur))

/-- Settles O31: the pins follow `EN`, which the equations of `TICKD` and `INITD` give. -/
theorem digitPinsFollowPolarity : Obligations.DigitPinsFollowPolarity := by
  refine fun s => ⟨rfl, fun t htick => ?_, fun t hinit => ?_⟩
  · obtain ⟨-, rfl⟩ := exec_tickd_eq_next.mp htick
    rfl
  · obtain ⟨-, rfl⟩ := fromHost_next.mp hinit
    have hen : (initDisplay s).en = 0 := rfl
    simp [digPins, pinsOf, hen]

/-- What one operation that leaves slot `p` alone does to the refresh of position `p`: the slot, the arm bit and the
tables stay, and the cursor moves on exactly at a `TICKD`. -/
theorem exec_leavesSlot {i : Instr} {s t : State} {p : Pos} (hleaves : leavesSlot p i) (h : exec i s = .next t) :
    t.darm = s.darm ∧ t.db.get p = s.db.get p ∧ t.tables = s.tables ∧
      t.cur = s.cur + BitVec.ofNat 2 (displayTicks [i]) := by
  obtain ⟨hreset, hinitd, hclrd, hsetc⟩ := hleaves
  rcases exec_next_cases h with ⟨hi, -⟩ | ⟨hi, -, -⟩ | ⟨hi, -, -⟩ | ⟨c, position, q, rfl, hq, -, rfl⟩ |
    ⟨rfl, -, rfl⟩ | ⟨rfl, -, rfl⟩ | ⟨rfl, -, rfl⟩ | ⟨rfl, -, rfl⟩ | ⟨v, rfl, -, rfl⟩
  · exact absurd hi hreset
  · exact absurd hi hinitd
  · exact absurd hi hclrd
  · have hpq : p ≠ q := fun hpq => hsetc c position rfl (hpq ▸ hq)
    simp [displayTicks, hpq]
  · exact ⟨rfl, rfl, rfl, rfl⟩
  · exact ⟨rfl, rfl, rfl, (BitVec.add_zero _).symm⟩
  · exact ⟨rfl, rfl, rfl, (BitVec.add_zero _).symm⟩
  · by_cases hpending : keyPending s <;> simp [hpending, displayTicks]
  · simp [inHandler_debounceTick, displayTicks]

/-- The same of a sequence: the cursor moves on by the number of its display ticks (R95). -/
theorem runInstrs_leavesSlot {l : List Instr} {s t : State} {p : Pos} (hleaves : ∀ i ∈ l, leavesSlot p i)
    (h : runInstrs l s = .next t) :
    t.darm = s.darm ∧ t.db.get p = s.db.get p ∧ t.tables = s.tables ∧
      t.cur = s.cur + BitVec.ofNat 2 (displayTicks l) := by
  induction l generalizing s with
  | nil =>
    cases h
    exact ⟨rfl, rfl, rfl, (BitVec.add_zero _).symm⟩
  | cons i l ih =>
    obtain ⟨u, hi, hl⟩ := runInstrs_cons_eq_next.mp h
    obtain ⟨harm, hslot, htables, hcur⟩ := exec_leavesSlot (hleaves i List.mem_cons_self) hi
    obtain ⟨harm', hslot', htables', hcur'⟩ := ih (fun j hj => hleaves j (List.mem_cons_of_mem i hj)) hl
    refine ⟨harm'.trans harm, hslot'.trans hslot, htables'.trans htables, ?_⟩
    have hticks : displayTicks (i :: l) = displayTicks [i] + displayTicks l := by
      simp [displayTicks, List.countP_cons, Nat.add_comm]
    rw [hcur', hcur, hticks, BitVec.ofNat_add, BitVec.add_assoc]

/-- `SETC` that completes writes the slot its position names (R94). -/
theorem exec_setc_eq_next {ch position : Byte} {p : Pos} {s t : State} (hp : slotOf position = some p) :
    exec (.setc ch position) s = .next t ↔ s.ctx = .normal ∧ t = writeSlot p ch s := by
  simp [exec, execSetc, hp, fromHost_next]

/-- Settles O30: the operations in between keep slot `p` and move the cursor by their display ticks, so the last tick
drives position `CUR` plus that number, and shows the slot there. -/
theorem writtenCharacterAppears : Obligations.WrittenCharacterAppears := by
  intro s u t ch position p l _ hp hsetc hleaves hrun
  obtain ⟨-, rfl⟩ := (exec_setc_eq_next hp).mp hsetc
  obtain ⟨v, hl, hlast⟩ := runInstrs_append_eq_next.mp hrun
  obtain ⟨w, htick, hend⟩ := runInstrs_cons_eq_next.mp hlast
  cases hend
  obtain ⟨-, rfl⟩ := exec_tickd_eq_next.mp htick
  obtain ⟨-, hslot, htables, hcur⟩ := runInstrs_leavesSlot hleaves hl
  have hdriven : onehot4 v.cur = onehot4 p ↔ v.cur = p := onehot4_inj
  simp only [writeSlot_cur, writeSlot_tables, writeSlot_db, DisplayBuffer.get_set, if_true] at hcur htables hslot
  simp only [inHandler_refreshTick, hdriven]
  refine ⟨?_, fun hv => by rw [hv, hslot, htables]⟩
  rw [hcur, eq_sub_iff_add_eq, add_comm]

end Sys2Proof.Machine
end

section
/-! The slots of `DB`: `SETC` writes one, `CLRD` blanks all four in an open order, possibly in parts (R93, R94). -/
namespace Sys2Proof.Machine

/-- Settles O20: a legal position names its own slot, an illegal one none. -/
theorem setcStoresOrIsRefused : Obligations.SetcStoresOrIsRefused := by
  refine fun s ch position => ⟨fun hctx hlegal => ?_, exec_setc_illegal ch s⟩
  rw [(exec_setc_eq_next (slotOf_legal hlegal)).mpr ⟨hctx, rfl⟩]
  have hpos : position = 0 ∨ position = 1 ∨ position = 2 ∨ position = 3 := by bv_omega
  rcases hpos with rfl | rfl | rfl | rfl <;> rfl

/-- Every slot is one `CLRD` has to write (R93). -/
theorem mem_all_slots (i : Pos) : i ∈ [(0 : Pos), 1, 2, 3] := by
  revert i; decide

/-- A `CLRD` that starts with every slot to write leaves a slot as it was or blank (R93). -/
theorem clearRun_all_get (cs : List Choice) (b : DisplayBuffer) (i : Pos) :
    (clearRun cs [0, 1, 2, 3] b).2.2.get i =
      if i ∈ (clearRun cs [0, 1, 2, 3] b).2.1 then b.get i else blankChar := by
  rw [clearRun_get]
  by_cases hleft : i ∈ (clearRun cs [0, 1, 2, 3] b).2.1
  · rw [if_neg (fun h => h.2 hleft), if_pos hleft]
  · rw [if_pos ⟨mem_all_slots i, hleft⟩, if_neg hleft]

/-- `CLRD` completes or is left unfinished in normal context, and starts with all four slots to write (R93). -/
theorem exec_clrd {s : State} (h : s.ctx = .normal) : exec .clrd s = .next (advanceClear [0, 1, 2, 3] s) :=
  fromHost_normal _ h

/-- Settles O21: with no `yield` no slot is left to be written, so every slot is blank. -/
theorem undividedClrdBlanksBuffer : Obligations.UndividedClrdBlanksBuffer := by
  intro s hctx hyield
  have hleft := clearRun_undivided s.sched [0, 1, 2, 3] s.db hyield
  have hblank : (clearRun s.sched [0, 1, 2, 3] s.db).2.2 = blankBuffer := by
    refine DisplayBuffer.ext_get fun i => ?_
    rw [clearRun_all_get, hleft, blankBuffer_get, if_neg List.not_mem_nil]
  refine ⟨(clearRun s.sched [0, 1, 2, 3] s.db).1, ?_⟩
  rw [exec_clrd hctx, advanceClear, hblank, hleft]
  rfl

/-- What the host is in the middle of after slot writes of a `CLRD`, said of the slots left (R93). -/
theorem clearing_of_left (left : List Pos) :
    (if left.isEmpty then HostOp.free else .clearing left) = if left = [] then .free else .clearing left := by
  cases left <;> rfl

/-- Settles O22: the slots left are those of `clearRun`, and every other slot is blank. -/
theorem clrdWritesBlanksInAnyOrder : Obligations.ClrdWritesBlanksInAnyOrder := by
  intro s hctx
  refine ⟨_, _, _, (clearRun s.sched [0, 1, 2, 3] s.db).2.1, exec_clrd hctx, clearing_of_left _,
    fun i => clearRun_all_get s.sched s.db i⟩

/-- Settles O24: the host's own step is the continuation, whose slots left are among those there were. -/
theorem clrdContinues : Obligations.ClrdContinues := by
  intro s pending hclear hyield
  have hready : hostReady s = true := by simp [hostReady, hclear]
  have hstep : hostStep (beginStep s) = advanceClear pending (beginStep s) := by simp [hostStep, hclear]
  refine ⟨_, _, (clearRun s.sched pending s.db).1, (clearRun s.sched pending s.db).2.1,
    (step_of_hostReady hready hyield).trans ?_, clearing_of_left _, fun i hi => clearRun_pending_subset _ _ _ hi,
    clearRun_undivided _ _ _, fun i => clearRun_get s.sched pending s.db i⟩
  rw [hstep]
  rfl

/-- With `slot i` for each `i` of `l` and then `yield`, a `CLRD` with a slot outside `l` to write stops before the
`yield`, and the slots outside `l` are left (R93, U8). -/
theorem clearRun_slots_yield {l pending : List Pos} {k : Pos} (cs : List Choice) (b : DisplayBuffer)
    (hk : k ∈ pending) (hkl : k ∉ l) :
    (clearRun (l.map Choice.slot ++ .yield :: cs) pending b).1 = .yield :: cs ∧
      ∀ i, i ∈ (clearRun (l.map Choice.slot ++ .yield :: cs) pending b).2.1 ↔ i ∈ pending ∧ i ∉ l := by
  induction l generalizing pending b with
  | nil =>
    cases pending with
    | nil => cases hk
    | cons p ps => simp [clearRun]
  | cons j l ih =>
    obtain ⟨hkj, hkl⟩ : k ≠ j ∧ k ∉ l := by simpa using hkl
    cases pending with
    | nil => cases hk
    | cons p ps =>
      have hk' : k ∈ (p :: ps).filter (fun q => q != j) := by simpa [hkj] using hk
      obtain ⟨hchoices, hleft⟩ := ih (if j ∈ p :: ps then b.set j blankChar else b) hk' hkl
      refine ⟨hchoices, fun i => (hleft i).trans ?_⟩
      simp only [List.mem_filter, bne_iff_ne, List.mem_cons (a := i) (l := l)]
      tauto

/-- The divided `CLRD` as an operation: the host is left inside it, with the slots outside `l` still as they were. -/
theorem exec_clrd_split {s : State} {l : List Pos} {cs : List Choice} {k : Pos} (hctx : s.ctx = .normal)
    (hk : k ∉ l) (hsched : s.sched = l.map Choice.slot ++ .yield :: cs) :
    ∃ b pending, exec .clrd s = .next { s with db := b, host := .clearing pending, sched := .yield :: cs } ∧
      (∀ i : Pos, i ∈ pending ↔ i ∉ l) ∧ ∀ i : Pos, b.get i = if i ∈ l then 0x20 else s.db.get i := by
  obtain ⟨hchoices, hleft⟩ := clearRun_slots_yield cs s.db (mem_all_slots k) hk
  rw [← hsched] at hchoices hleft
  have hleft : ∀ i, i ∈ (clearRun s.sched [0, 1, 2, 3] s.db).2.1 ↔ i ∉ l :=
    fun i => (hleft i).trans (and_iff_right (mem_all_slots i))
  have hbusy : (clearRun s.sched [0, 1, 2, 3] s.db).2.1.isEmpty = false :=
    List.isEmpty_eq_false_iff.mpr (List.ne_nil_of_mem ((hleft k).mpr hk))
  refine ⟨(clearRun s.sched [0, 1, 2, 3] s.db).2.2, _, ?_, hleft, fun i => ?_⟩
  · rw [exec_clrd hctx, advanceClear, hchoices, hbusy]
    rfl
  · simp only [clearRun_all_get, hleft, ite_not]
    rfl

/-- Settles O23: as an operation by `exec_clrd_split`, and as an event because the choices it brings are all there are
and control returns to a context the `CLRD` ran in. -/
theorem clrdCanBeSplitAnywhere : Obligations.ClrdCanBeSplitAnywhere := by
  refine ⟨fun s l cs k hctx hk hsched => exec_clrd_split hctx hk hsched,
    fun s e es l cs k hfree htrace hctx hdec hsched hk hchoices => ?_⟩
  have hsched' : (arrive e es { s with ret := none }).sched = l.map Choice.slot ++ .yield :: cs := by
    rw [arrive_sched, ← hchoices, hsched, List.nil_append]
  have hctx' : (arrive e es { s with ret := none }).ctx = .normal := (arrive_ctx ..).trans hctx
  obtain ⟨b, pending, hexec, hleft, hget⟩ := exec_clrd_split hctx' hk hsched'
  rw [arrive_db] at hget
  refine ⟨{ arrive e es { s with ret := none } with
      db := b, host := .clearing pending, sched := .yield :: cs, ctx := .normal },
    pending, ?_, rfl, hleft, hget, arrive_trace e es _, rfl, rfl⟩
  exact (step_of_free_ok hfree htrace hdec).trans (congrArg finish hexec)

end Sys2Proof.Machine
end

section
/-! The two tables and the scanner over them (R61 to R63, R66, R75, R111, R112). -/
namespace Sys2Proof.Machine

/-- Settles O25: an admitted `SEGROM` has rows for supported characters only. -/
theorem unsupportedCharactersAreBlank : Obligations.UnsupportedCharactersAreBlank := by
  intro t c hwf hc
  obtain ⟨hrows, -⟩ := Tables.wf_segrom hwf
  exact segLookup_unsupported fun r hr hrc => hc (hrc ▸ (hrows r hr).1)

/-- Settles O26: `encode_bit7`. -/
theorem patternBitSevenIsZero : Obligations.PatternBitSevenIsZero := fun _ c hwf => encode_bit7 hwf c

/-- Settles O27: what `Tables.wf` asks, and that the default tables meet it. -/
theorem sourcePatterns : Obligations.SourcePatterns :=
  ⟨fun _ hwf => (Tables.wf_segrom hwf).2, defaultTables_wf⟩

/-- Settles O32: codes and symbols are each pairwise distinct over the rows, the symbols as a permutation of the
sixteen. -/
theorem keytabIsBijective : Obligations.KeytabIsBijective := by
  refine ⟨fun t hwf => ?_, defaultTables_wf⟩
  obtain ⟨hlength, hcodes, hperm, hsource⟩ := Tables.wf_keytab hwf
  have hsyms : (t.keytab.map KeyRow.sym).Nodup := hperm.nodup_iff.mpr (by decide)
  refine ⟨hlength, hsource, fun r hr q hq hrq => ?_, fun k => ?_⟩
  · rcases hrq with hcode | hsym
    · exact List.inj_on_of_nodup_map hcodes hr hq hcode
    · exact List.inj_on_of_nodup_map hsyms hr hq hsym
  · rw [← hperm.mem_iff, List.mem_map]

/-- What a scan finds: the symbol of the first row from `i` on whose bit is set (R111). -/
theorem scanFrom_eq_some_iff {rows : List KeyRow} {i : Nat} {e : BitVec 16} {k : Byte} :
    scanFrom rows i e = some k ↔
      ∃ n r, rows[n]? = some r ∧ e.getLsbD (i + n) = true ∧ (∀ m, m < n → e.getLsbD (i + m) = false) ∧ r.sym = k := by
  induction rows generalizing i with
  | nil => simp [scanFrom]
  | cons q rows ih =>
    cases hbit : e.getLsbD i with
    | true =>
      rw [scanFrom, if_pos hbit]
      constructor
      · intro h
        exact ⟨0, q, rfl, hbit, fun m hm => absurd hm (Nat.not_lt_zero m), Option.some.inj h⟩
      · rintro ⟨n, r, hr, -, hlow, hk⟩
        cases n with
        | zero => cases hr; exact congrArg some hk
        | succ n => exact absurd (hlow 0 (Nat.succ_pos n)) (by simp [hbit])
    | false =>
      rw [scanFrom, if_neg (by simp [hbit]), ih]
      constructor
      · rintro ⟨n, r, hr, he, hlow, hk⟩
        refine ⟨n + 1, r, hr, by rwa [← Nat.succ_add_eq_add_succ], fun m hm => ?_, hk⟩
        cases m with
        | zero => exact hbit
        | succ m => rw [← Nat.succ_add_eq_add_succ]; exact hlow m (by omega)
      · rintro ⟨n, r, hr, he, hlow, hk⟩
        cases n with
        | zero => simp [hbit] at he
        | succ n =>
          refine ⟨n, r, hr, by rwa [Nat.succ_add_eq_add_succ], fun m hm => ?_, hk⟩
          rw [Nat.succ_add_eq_add_succ]
          exact hlow (m + 1) (by omega)

/-- Settles O34: the scan starts at index 0. -/
theorem scanTakesLowestIndex : Obligations.ScanTakesLowestIndex := by
  refine fun t e hwf => ⟨scan_eq_none hwf e, fun k => ?_⟩
  rw [scan, scanFrom_eq_some_iff]
  simp only [Nat.zero_add]

/-- No bit below index `i` is an echo of the rows from `i` on (R75). -/
theorem echoFrom_getLsbD_lt {rows : List KeyRow} {i j : Nat} (answer : Byte → Byte) (h : j < i) :
    (echoFrom rows i answer).getLsbD j = false := by
  induction rows generalizing i with
  | nil => simp [echoFrom]
  | cons r rows ih =>
    rw [echoFrom, BitVec.getLsbD_or, ih (by omega)]
    split <;> simp [h]

/-- Bit `i + n` of the echo vector is the echo of the row at `n` (R75). -/
theorem echoFrom_getLsbD {rows : List KeyRow} {i n : Nat} {r : KeyRow} (answer : Byte → Byte)
    (hr : rows[n]? = some r) (hlength : i + rows.length ≤ 16) :
    (echoFrom rows i answer).getLsbD (i + n) = decide (answer r.code = r.code) := by
  induction rows generalizing i n with
  | nil => simp at hr
  | cons q rows ih =>
    rw [List.length_cons] at hlength
    rw [echoFrom, BitVec.getLsbD_or]
    cases n with
    | zero =>
      cases hr
      rw [Nat.add_zero, echoFrom_getLsbD_lt answer (Nat.lt_succ_self i), Bool.or_false]
      by_cases hecho : answer r.code = r.code
      · have hi : i < 16 := by omega
        simp [hecho, hi]
      · simp [hecho]
    | succ n =>
      have hrest := ih (i := i + 1) (n := n) hr (by omega)
      rw [Nat.succ_add_eq_add_succ] at hrest
      rw [hrest]
      split <;> simp

/-- Scanning a vector whose bits are the answers' echoes is scanning the answers (R75, R111). -/
theorem scanFrom_eq_scanAnswerIn {rows : List KeyRow} {i : Nat} {e : BitVec 16} {answer : Byte → Byte}
    (h : ∀ n r, rows[n]? = some r → e.getLsbD (i + n) = decide (answer r.code = r.code)) :
    scanFrom rows i e = scanAnswerIn rows answer := by
  induction rows generalizing i with
  | nil => rfl
  | cons r rows ih =>
    have hbit : e.getLsbD i = decide (answer r.code = r.code) := h 0 r rfl
    have hrest : scanFrom rows (i + 1) e = scanAnswerIn rows answer :=
      ih fun n q hq => by rw [Nat.succ_add_eq_add_succ]; exact h (n + 1) q hq
    simp only [scanFrom, scanAnswerIn, hbit, hrest, decide_eq_true_eq]

/-- Settles O35: the sixteen rows fit the vector's sixteen bits. -/
theorem echoVectorCarriesTheScan : Obligations.EchoVectorCarriesTheScan := by
  intro t answer hwf
  have hlength : 0 + t.keytab.length ≤ 16 := by simp [(Tables.wf_keytab hwf).1]
  have hbits : ∀ n r, t.keytab[n]? = some r →
      (echoOf t answer).getLsbD (0 + n) = decide (answer r.code = r.code) :=
    fun n r hr => echoFrom_getLsbD answer hr hlength
  exact ⟨fun n r hr => Nat.zero_add n ▸ hbits n r hr, scanFrom_eq_scanAnswerIn hbits⟩

/-- With a table of sixteen rows a key is active exactly when the echo vector is not zero (R112). -/
theorem scan_isSome {t : Tables} (h : t.wf = true) (e : BitVec 16) : (scan t e).isSome = decide (e ≠ 0) := by
  by_cases he : e = 0
  · simp [he]
  · have hne : scan t e ≠ none := fun hnone => he ((scan_eq_none h e).mp hnone)
    rw [Option.isSome_iff_ne_none.mpr hne, decide_eq_true he]

/-- The vector in which only the code of row `i` echoes is scanned to that row's symbol (R80, R111). -/
theorem scan_echoOnly {t : Tables} (h : t.wf = true) {i : Nat} {r : KeyRow} (hr : t.keytab[i]? = some r) :
    scan t (echoOnly i) = some r.sym := by
  obtain ⟨hlt, -⟩ := List.getElem?_eq_some_iff.mp hr
  rw [(Tables.wf_keytab h).1] at hlt
  refine ((scanTakesLowestIndex t (echoOnly i) h).2 r.sym).mpr ⟨i, r, hr, ?_, fun j hj => ?_, rfl⟩
  · simp [echoOnly, hlt]
  · simp [echoOnly, hj]

end Sys2Proof.Machine
end

section
/-! The debounce engine over one tick and over many: a press publishes one event, a one-tick press none, and a press
that finds the queue full none ever (R113 to R122). -/
namespace Sys2Proof.Machine
open Sys2Proof.Safety

/-- The state a keypad tick leaves, with this state of the debounce engine and this queue. -/
def afterTickk (k : DebounceState) (q : Byte) (s : State) : State :=
  { s with kst := k, kq := q, kcmp := s.tcnt + BitVec.ofNat Config.tcntW Config.tKey, kpend := false }

/-- `TICKK` while armed completes, by the engine's table (R113, R124). -/
theorem exec_tickk {s : State} (e : BitVec 16) (h : s.karm = true) :
    exec (.tickk e) s = .next (afterTickk (nextKst s.kst (scan s.tables e).isSome)
      (nextKq s.kst (scan s.tables e) s.kq) s) := by
  simp [exec, execTickk, h, inHandler_debounceTick, afterTickk]

/-- A tick after a tick: what it leaves replaces what the first one left. -/
theorem exec_tickk_afterTickk {s : State} (e : BitVec 16) (k : DebounceState) (q : Byte) (h : s.karm = true) :
    exec (.tickk e) (afterTickk k q s) =
      .next (afterTickk (nextKst k (scan s.tables e).isSome) (nextKq k (scan s.tables e) q) s) :=
  exec_tickk (s := afterTickk k q s) e h

/-- A tick that completes found its engine armed, and is the one of the engine's table (R148). -/
theorem exec_tickk_eq_next {s t : State} {e : BitVec 16} :
    exec (.tickk e) s = .next t ↔ s.karm = true ∧
      t = afterTickk (nextKst s.kst (scan s.tables e).isSome) (nextKq s.kst (scan s.tables e) s.kq) s := by
  by_cases h : s.karm = true
  · simp [exec_tickk e h, h, eq_comm]
  · simp [exec, execTickk, h]

/-- The engine's next state, by the echo vector (R112, R113). -/
theorem nextKst_scan {t : Tables} (h : t.wf = true) (k : DebounceState) (e : BitVec 16) :
    nextKst k (scan t e).isSome = if e = 0 then nextKst k false else nextKst k true := by
  rw [scan_isSome h]
  by_cases he : e = 0
  · rw [if_pos he, decide_eq_false (not_not_intro he)]
  · rw [if_neg he, decide_eq_true he]

/-- Outside PRESS_PENDING a tick leaves the queue alone (R114, R116, R117). -/
theorem nextKq_of_ne {k : DebounceState} (h : k ≠ .pressPending) (sym : Option Byte) (q : Byte) :
    nextKq k sym q = q := by
  by_contra hne
  exact h (nextKq_ne hne).1

/-- `TICKK` outside PRESS_PENDING as the echo vector decides, with the queue left alone. -/
theorem exec_tickk_of_ne {s : State} (e : BitVec 16) (hwf : s.tables.wf = true) (harm : s.karm = true)
    (hkst : s.kst ≠ .pressPending) :
    exec (.tickk e) s =
      .next (afterTickk (if e = 0 then nextKst s.kst false else nextKst s.kst true) s.kq s) := by
  rw [exec_tickk e harm, nextKst_scan hwf, nextKq_of_ne hkst]

/-- Settles O36: the engine's table in IDLE. -/
theorem tickkInIdle : Obligations.TickkInIdle := by
  intro s e hwf harm hkst
  rw [exec_tickk_of_ne e hwf harm (by simp [hkst]), hkst]
  rfl

/-- Settles O38: the engine's table in PRESSED_WAIT_RELEASE. -/
theorem tickkInPressedWaitRelease : Obligations.TickkInPressedWaitRelease := by
  intro s e hwf harm hkst
  rw [exec_tickk_of_ne e hwf harm (by simp [hkst]), hkst]
  rfl

/-- Settles O39: the engine's table in RELEASE_PENDING. -/
theorem tickkInReleasePending : Obligations.TickkInReleasePending := by
  intro s e hwf harm hkst
  rw [exec_tickk_of_ne e hwf harm (by simp [hkst]), hkst]
  rfl

/-- An active key has a symbol (R112). -/
theorem exists_scan_eq_some {t : Tables} (h : t.wf = true) {e : BitVec 16} (he : e ≠ 0) :
    ∃ k, scan t e = some k := by
  rw [← Option.isSome_iff_exists, scan_isSome h, decide_eq_true he]

/-- Settles O37: the engine's table in PRESS_PENDING, without and with a key. -/
theorem tickkInPressPending : Obligations.TickkInPressPending := by
  intro s e hwf harm hkst
  refine ⟨fun he => ?_, fun he => ?_⟩
  · have hscan : scan s.tables e = none := (scan_eq_none hwf e).mpr he
    rw [exec_tickk e harm, hscan, hkst]
    rfl
  · obtain ⟨k, hscan⟩ := exists_scan_eq_some hwf he
    refine ⟨k, hscan, ?_⟩
    rw [exec_tickk e harm, hscan, hkst]
    rfl

/-- Two active ticks from IDLE with an empty queue publish the second one's symbol (R114, R115). -/
theorem runInstrs_press {s : State} {first second : BitVec 16} {k : Byte} (l : List Instr) (harm : s.karm = true)
    (hkst : s.kst = .idle) (hkq : s.kq = noKey) (hfirst : (scan s.tables first).isSome = true)
    (hsecond : scan s.tables second = some k) :
    runInstrs (.tickk first :: .tickk second :: l) s = runInstrs l (afterTickk .pressedWaitRelease k s) := by
  have hfirst : exec (.tickk first) s = .next (afterTickk .pressPending noKey s) := by
    rw [exec_tickk first harm, hfirst, hkst, hkq]
    rfl
  have hsecond : exec (.tickk second) (afterTickk .pressPending noKey s) =
      .next (afterTickk .pressedWaitRelease k s) := by
    rw [exec_tickk_afterTickk second _ _ harm, hsecond]
    rfl
  rw [runInstrs_cons_of_next _ hfirst, runInstrs_cons_of_next _ hsecond]

/-- Ticks that repeat what the engine has already seen change nothing more, however many there are (R116). -/
theorem runInstrs_replicate_tickk {s : State} {e : BitVec 16} {k : DebounceState} {q : Byte} (n : Nat)
    (harm : s.karm = true) (hkst : nextKst k (scan s.tables e).isSome = k) (hkq : nextKq k (scan s.tables e) q = q) :
    runInstrs (List.replicate n (.tickk e)) (afterTickk k q s) = .next (afterTickk k q s) := by
  have htick := exec_tickk_afterTickk e k q harm
  rw [hkst, hkq] at htick
  induction n with
  | zero => rfl
  | succ n ih => rw [List.replicate_succ, runInstrs_cons_of_next _ htick, ih]

/-- A key that stays pressed publishes nothing more: there is no auto-repeat (R116). -/
theorem runInstrs_hold {s : State} {e : BitVec 16} {k q : Byte} (n : Nat) (harm : s.karm = true)
    (hscan : scan s.tables e = some k) :
    runInstrs (List.replicate n (.tickk e)) (afterTickk .pressedWaitRelease q s) =
      .next (afterTickk .pressedWaitRelease q s) :=
  runInstrs_replicate_tickk n harm (by rw [hscan]; rfl) rfl

/-- A release of two ticks or more takes the engine to IDLE and leaves the queue alone (R116, R117). -/
theorem runInstrs_release {s : State} (q : Byte) (m : Nat) (harm : s.karm = true) :
    runInstrs (List.replicate (m + 2) (.tickk 0)) (afterTickk .pressedWaitRelease q s) =
      .next (afterTickk .idle q s) := by
  have hscan : scan s.tables 0 = none := scan_zero s.tables
  have hwait : exec (.tickk 0) (afterTickk .pressedWaitRelease q s) = .next (afterTickk .releasePending q s) := by
    rw [exec_tickk_afterTickk 0 _ _ harm, hscan]
    rfl
  have hpending : exec (.tickk 0) (afterTickk .releasePending q s) = .next (afterTickk .idle q s) := by
    rw [exec_tickk_afterTickk 0 _ _ harm, hscan]
    rfl
  rw [List.replicate_succ, runInstrs_cons_of_next _ hwait, List.replicate_succ, runInstrs_cons_of_next _ hpending]
  exact runInstrs_replicate_tickk m harm (by rw [hscan]; rfl) rfl

/-- Settles O40: press, hold and release one after another; a drain in between empties the queue and writes nothing
the engine reads. -/
theorem onePressOneEvent : Obligations.OnePressOneEvent := by
  intro s i n m r hwf harm hkst hkq hctx hr
  have hscan : scan s.tables (echoOnly i) = some r.sym := scan_echoOnly hwf hr
  have hactive : (scan s.tables (echoOnly i)).isSome = true := by rw [hscan]; rfl
  have hpress := fun l => runInstrs_press l harm hkst hkq hactive hscan
  refine ⟨⟨afterTickk .idle r.sym s, ?_, rfl, rfl⟩, ⟨afterTickk .pressedWaitRelease r.sym s, hpress [], rfl⟩,
    ⟨afterTickk .idle noKey { s with ret := some r.sym }, ?_, rfl, rfl, rfl⟩⟩
  · refine runInstrs_append_eq_next.mpr
      ⟨afterTickk .pressedWaitRelease r.sym s, ?_, runInstrs_release r.sym m harm⟩
    rw [List.replicate_succ, List.replicate_succ, hpress]
    exact runInstrs_hold n harm hscan
  · have hpoll : exec .poll (afterTickk .pressedWaitRelease r.sym s) =
        .next (afterTickk .pressedWaitRelease noKey { s with ret := some r.sym }) := fromHost_normal _ hctx
    refine runInstrs_append_eq_next.mpr
      ⟨afterTickk .pressedWaitRelease noKey { s with ret := some r.sym }, ?_,
        runInstrs_release (s := { s with ret := some r.sym }) noKey m harm⟩
    refine runInstrs_append_eq_next.mpr ⟨_, ?_, runInstrs_hold (s := { s with ret := some r.sym }) n harm hscan⟩
    rw [hpress, runInstrs_cons_of_next _ hpoll, runInstrs]

/-- Settles O41: IDLE, PRESS_PENDING, IDLE, none of which publishes without a key. -/
theorem oneTickPressIsNoise : Obligations.OneTickPressIsNoise := by
  intro s e hwf harm hkst he
  have hfirst : exec (.tickk e) s = .next (afterTickk .pressPending s.kq s) := by
    rw [exec_tickk_of_ne e hwf harm (by simp [hkst]), hkst, if_neg he]
    rfl
  have hsecond := (tickkInPressPending (afterTickk .pressPending s.kq s) 0 hwf harm rfl).1 rfl
  exact ⟨_, (runInstrs_cons_of_next _ hfirst).trans (runInstrs_cons_of_next _ hsecond), rfl, rfl⟩

/-- Settles O43: two active ticks, by `runInstrs_press`. -/
theorem confirmingTickGivesSymbol : Obligations.ConfirmingTickGivesSymbol := by
  intro s first second hwf harm hkst hkq hfirst hsecond
  obtain ⟨k, hscan⟩ := exists_scan_eq_some hwf hsecond
  have hactive : (scan s.tables first).isSome = true := (scan_isSome hwf first).trans (decide_eq_true hfirst)
  exact ⟨_, k, runInstrs_press [] harm hkst hkq hactive hscan, hscan, rfl⟩

/-- The engine has accepted a press that is not over: PRESSED_WAIT_RELEASE or RELEASE_PENDING (R116, R117). -/
def pressAccepted (k : DebounceState) : Prop := k = .pressedWaitRelease ∨ k = .releasePending

/-- From an accepted press the engine goes on with it, or to IDLE (R116, R117). -/
theorem nextKst_of_pressAccepted {k : DebounceState} (h : pressAccepted k) (active : Bool) :
    nextKst k active = .idle ∨ pressAccepted (nextKst k active) := by
  rcases h with rfl | rfl <;> cases active
  · exact .inr (.inr rfl)
  · exact .inr (.inl rfl)
  · exact .inl rfl
  · exact .inr (.inl rfl)

/-- Only `INITK`, `TICKK` and `RESET` write the debounce engine's state, each as its rule says (R22). -/
theorem exec_kst {i : Instr} {s t : State} (h : exec i s = .next t) :
    t.kst = s.kst ∨ i = .initk ∧ t.kst = .idle ∨
      (∃ e, i = .tickk e ∧ t.kst = nextKst s.kst (scan s.tables e).isSome) ∨ i = .reset := by
  rcases exec_next_cases h with ⟨hi, -⟩ | ⟨-, -, rfl⟩ | ⟨-, -, rfl⟩ | ⟨c, p, q, -, -, -, rfl⟩ |
    ⟨-, -, rfl⟩ | ⟨hi, -, rfl⟩ | ⟨-, -, rfl⟩ | ⟨-, -, rfl⟩ | ⟨e, hi, -, rfl⟩
  · exact .inr (.inr (.inr hi))
  · exact .inl rfl
  · exact .inl rfl
  · exact .inl rfl
  · exact .inl rfl
  · exact .inr (.inl ⟨hi, rfl⟩)
  · exact .inl rfl
  · by_cases hpending : keyPending s <;> simp [hpending]
  · exact .inr (.inr (.inl ⟨e, hi, by rw [inHandler_debounceTick]⟩))

/-- From an accepted press no operation but `RESET` publishes, and the engine goes on with the press or to IDLE. -/
theorem exec_of_pressAccepted {i : Instr} {s t : State} (hreset : i ≠ .reset) (hkst : pressAccepted s.kst)
    (h : exec i s = .next t) : (t.kst = .idle ∨ pressAccepted t.kst) ∧ (t.kq = s.kq ∨ t.kq = noKey) := by
  constructor
  · rcases exec_kst h with hsame | ⟨-, hidle⟩ | ⟨e, -, hnext⟩ | hi
    · exact .inr (hsame ▸ hkst)
    · exact .inl hidle
    · exact hnext ▸ nextKst_of_pressAccepted hkst _
    · exact absurd hi hreset
  · rcases exec_kq h with hsame | hempty | ⟨e, -, -, hpending, -⟩ | hi
    · exact .inl hsame
    · exact .inr hempty
    · rw [hpending] at hkst
      rcases hkst with hkst | hkst <;> cases hkst
    · exact absurd hi hreset

/-- The same of a sequence that never takes the engine to IDLE: the press is still not over, and nothing is
published. -/
theorem runInstrs_of_pressAccepted {l : List Instr} {s t : State} (hreset : .reset ∉ l) (hkst : pressAccepted s.kst)
    (hidle : ∀ l' u, l' <+: l → runInstrs l' s = .next u → u.kst ≠ .idle) (h : runInstrs l s = .next t) :
    pressAccepted t.kst ∧ (t.kq = s.kq ∨ t.kq = noKey) := by
  induction l generalizing s with
  | nil =>
    cases h
    exact ⟨hkst, .inl rfl⟩
  | cons i l ih =>
    obtain ⟨hi, hl⟩ : .reset ≠ i ∧ .reset ∉ l := by simpa using hreset
    obtain ⟨u, hexec, hrest⟩ := runInstrs_cons_eq_next.mp h
    obtain ⟨hu, hkq⟩ := exec_of_pressAccepted hi.symm hkst hexec
    have hone : runInstrs [i] s = .next u := runInstrs_cons_of_next [] hexec
    have hu : pressAccepted u.kst := hu.resolve_left (hidle [i] u (by simp) hone)
    have hidle' : ∀ l' v, l' <+: l → runInstrs l' u = .next v → v.kst ≠ .idle := fun l' v hl' hv =>
      hidle (i :: l') v (List.cons_prefix_cons.mpr ⟨rfl, hl'⟩) ((runInstrs_cons_of_next l' hexec).trans hv)
    obtain ⟨ht, hkq'⟩ := ih hl hu hidle' hrest
    refine ⟨ht, hkq'.elim (fun heq => ?_) .inr⟩
    rw [heq]
    exact hkq

@[simp] theorem hostStep_kst (s : State) : (hostStep s).kst = s.kst := by
  obtain ⟨_, _, _, _, _, h, -⟩ := hostStep_frame s
  rw [h]

/-- Settles O42: a step from an accepted press is the host's own, nothing, or an operation, which
`exec_of_pressAccepted` covers; and the confirming tick that finds the queue full accepts the press and leaves the
queue as it is. -/
theorem droppedPressStaysDropped : Obligations.DroppedPressStaysDropped := by
  constructor
  · intro s t hkst hstep
    have hkst : pressAccepted s.kst := hkst
    rcases step_next_cases hstep with ⟨cs, -, rfl⟩ | ⟨-, -, rfl⟩ | ⟨i, e, rest, cs, u, hexec, hdec, hnext, rfl⟩
    · refine .inl ⟨.inr ?_, hostStep_kq _⟩
      rw [hostStep_kst]
      exact hkst
    · exact .inl ⟨.inr hkst, .inl rfl⟩
    · by_cases hi : i = .reset
      · exact .inr ⟨e, rest, hnext, hi ▸ hdec⟩
      · have hu := exec_of_pressAccepted hi (by rwa [arrive_kst]) hexec
        rw [arrive_kq] at hu
        exact .inl hu
  · intro s t e l hwf hkst hfull he hreset hidle hrun
    obtain ⟨u, htick, hrest⟩ := runInstrs_cons_eq_next.mp hrun
    obtain ⟨k, hscan⟩ := exists_scan_eq_some hwf he
    have hu : u = afterTickk .pressedWaitRelease s.kq s := by
      obtain ⟨-, rfl⟩ := exec_tickk_eq_next.mp htick
      rw [hscan, hkst]
      simp [nextKst, nextKq, hfull]
    subst hu
    exact runInstrs_of_pressAccepted (s := afterTickk .pressedWaitRelease s.kq s) hreset (.inl rfl)
      (fun l' v hl' hv => hidle l' v hl' ((runInstrs_cons_of_next l' htick).trans hv)) hrest

end Sys2Proof.Machine
end

section
/-! The consumers of the queue and the hold of `READK` (R48, R132, R133, R153). -/
namespace Sys2Proof.Machine
open Sys2Proof.Safety

/-- Settles O45: two drains, the second of an empty queue. -/
theorem secondPollReturnsNoKey : Obligations.SecondPollReturnsNoKey := by
  intro s hctx
  have hfirst : exec .poll s = .next (drain s) := fromHost_normal _ hctx
  have hsecond : exec .poll (drain s) = .next (drain (drain s)) := fromHost_normal _ hctx
  rw [runInstrs_cons_of_next _ hfirst, runInstrs_cons_of_next _ hsecond]
  rfl

/-- `READK` in normal context drains or holds (R133). -/
theorem exec_readk {s : State} (h : s.ctx = .normal) :
    exec .readk s = .next (if keyPending s then drain s else hold s) := fromHost_normal _ h

/-- Settles O46: the drain or the hold, as the queue decides. -/
theorem readkDrainsOrHolds : Obligations.ReadkDrainsOrHolds := by
  intro s hctx
  refine ⟨fun hkq => ?_, fun hkq => ?_⟩
  · rw [exec_readk hctx, if_pos ((keyPending_eq_true s).mpr hkq)]
    rfl
  · rw [exec_readk hctx, (keyPending_eq_false s).mpr hkq]
    rfl

/-- Settles O48: the host's own step is the drain, and takes effect at once. -/
theorem holdEndsWithTheDrain : Obligations.HoldEndsWithTheDrain := by
  intro s hhold hkq hyield
  have hready : hostReady s = true := by simp [hostReady, hhold, hkq]
  have hstep : hostStep (beginStep s) = release (drain (beginStep s)) := by simp [hostStep, hhold]
  rw [step_of_hostReady hready hyield, hstep]
  rfl

/-- Settles O49: each of the six operations is the host's. -/
theorem hostOperationsRefusedInTick : Obligations.HostOperationsRefusedInTick := by
  intro s hctx
  refine ⟨fromHost_interrupt _ hctx, fromHost_interrupt _ hctx, fun ch position hlegal => ?_,
    fromHost_interrupt _ hctx, fromHost_interrupt _ hctx, fromHost_interrupt _ hctx⟩
  rw [exec, execSetc, slotOf_legal hlegal]
  exact fromHost_interrupt _ hctx

/-- A host operation completes in normal context only (R153). -/
theorem ctx_of_exec_host {i : Instr} {s t : State} (hagent : i.agent = .host) (h : exec i s = .next t) :
    s.ctx = .normal := by
  rcases exec_next_cases h with ⟨rfl, -⟩ | ⟨-, hctx, -⟩ | ⟨-, hctx, -⟩ | ⟨c, p, q, -, -, hctx, -⟩ |
    ⟨rfl, -⟩ | ⟨-, hctx, -⟩ | ⟨-, hctx, -⟩ | ⟨-, hctx, -⟩ | ⟨e, rfl, -⟩
  · cases hagent
  · exact hctx
  · exact hctx
  · exact hctx
  · cases hagent
  · exact hctx
  · exact hctx
  · exact hctx
  · cases hagent

/-- What runs while the host is inside an operation is not the host's (R133). -/
theorem agent_of_busy {s u v : State} {e : Event} {rest : List Event} {i : Instr} (hbusy : s.host ≠ .free)
    (hnext : nextEvent s = some (e, rest)) (hdec : decodeWord e.word = .ok i)
    (hexec : exec i (arrive e rest u) = .next v) : i.agent ≠ .host := by
  intro hagent
  have hctx : e.ctx = .normal := by simpa using ctx_of_exec_host hagent hexec
  have hissued : hostIssued e = true := by simp [hostIssued, hctx, hdec, hagent]
  have hother := busyHostIssuesNothing s e rest hbusy hnext
  rw [hissued] at hother
  cases hother

/-- A tick leaves the host where it is and returns nothing (R22, R81). -/
theorem exec_of_not_host {i : Instr} {s t : State} (hagent : i.agent ≠ .host) (h : exec i s = .next t) :
    t.ret = s.ret ∧ (t.host = s.host ∨ i = .reset) := by
  rcases exec_next_cases h with ⟨rfl, rfl⟩ | ⟨rfl, -⟩ | ⟨rfl, -⟩ | ⟨c, p, q, rfl, -⟩ |
    ⟨-, -, rfl⟩ | ⟨rfl, -⟩ | ⟨rfl, -⟩ | ⟨rfl, -⟩ | ⟨e, -, -, rfl⟩
  · exact ⟨rfl, .inr rfl⟩
  · exact absurd rfl hagent
  · exact absurd rfl hagent
  · exact absurd rfl hagent
  · exact ⟨rfl, .inl rfl⟩
  · exact absurd rfl hagent
  · exact absurd rfl hagent
  · exact absurd rfl hagent
  · simp [inHandler_debounceTick]

/-- Settles O47: a holding host with an empty queue has no step of its own, so the step does nothing or runs an
operation that is not the host's. -/
theorem holdReturnsNothing : Obligations.HoldReturnsNothing := by
  intro s t hhold hkq hstep
  have hbusy : s.host ≠ .free := by simp [hhold]
  have hwaits : hostReady s = false := by simp [hostReady, hhold, hkq]
  rcases step_next_cases hstep with ⟨cs, hready, -⟩ | ⟨-, -, rfl⟩ | ⟨i, e, rest, cs, u, hexec, hdec, hnext, rfl⟩
  · rw [hwaits] at hready
    cases hready
  · exact ⟨rfl, .inl hhold, fun _ => rfl⟩
  · obtain ⟨hret, hhost⟩ := exec_of_not_host (agent_of_busy hbusy hnext hdec hexec) hexec
    rw [arrive_ret] at hret
    rw [arrive_host] at hhost
    refine ⟨hret, ?_, fun hnone => ?_⟩
    · rcases hhost with hhost | rfl
      · exact .inl (hhost.trans hhold)
      · exact .inr ⟨e, rest, hnext, hdec⟩
    · rw [hnext] at hnone
      cases hnone

/-- The operations that take a pending symbol out of the queue: a consumer returns it, `INITK` discards it, and only
`RESET` may put another in its place (R33 (e), R131). -/
theorem exec_pending_leaves {i : Instr} {s t : State} (hfull : s.kq ≠ noKey) (hne : t.kq ≠ s.kq)
    (h : exec i s = .next t) :
    (i = .poll ∨ i = .readk) ∧ t.kq = noKey ∧ t.ret = some s.kq ∨ i = .initk ∧ t.kq = noKey ∨ i = .reset := by
  rcases exec_next_cases h with ⟨hi, -⟩ | ⟨-, -, rfl⟩ | ⟨-, -, rfl⟩ | ⟨c, p, q, -, -, -, rfl⟩ |
    ⟨-, -, rfl⟩ | ⟨hi, -, rfl⟩ | ⟨hi, -, rfl⟩ | ⟨hi, -, rfl⟩ | ⟨e, -, -, rfl⟩
  · exact .inr (.inr hi)
  · exact absurd rfl hne
  · exact absurd rfl hne
  · exact absurd rfl hne
  · exact absurd rfl hne
  · exact .inr (.inl ⟨hi, rfl⟩)
  · exact .inl ⟨.inl hi, rfl, rfl⟩
  · rw [if_pos ((keyPending_eq_true s).mpr hfull)]
    exact .inl ⟨.inr hi, rfl, rfl⟩
  · rw [inHandler_debounceTick] at hne
    exact absurd (nextKq_ne hne).2.1 hfull

/-- The host's own step empties the queue only by the drain that ends a hold (R93, R133). -/
theorem hostStep_kq_ne {s : State} (h : (hostStep s).kq ≠ s.kq) :
    s.host = .holding ∧ (hostStep s).ret = some s.kq := by
  unfold hostStep at h ⊢
  cases hhost : s.host with
  | free => simp [hhost] at h
  | clearing pending =>
    rw [hhost] at h
    exact absurd rfl h
  | holding => exact ⟨rfl, rfl⟩

/-- Settles O51: the symbol leaves by the host's own drain or by one of `exec_pending_leaves`. -/
theorem pendingSymbolIsNeverOverwritten : Obligations.PendingSymbolIsNeverOverwritten := by
  intro s t hstep hfull hne
  rcases step_next_cases hstep with ⟨cs, -, rfl⟩ | ⟨-, -, rfl⟩ | ⟨i, e, rest, cs, u, hexec, hdec, hnext, rfl⟩
  · obtain ⟨hhold, hret⟩ := hostStep_kq_ne hne
    exact .inl ⟨(hostStep_kq _).resolve_left hne, hhold, hret⟩
  · exact absurd rfl hne
  · refine .inr ⟨e, rest, i, hnext, hdec, ?_⟩
    have hkq : (arrive e rest { beginStep s with sched := cs }).kq = s.kq := arrive_kq ..
    have hu := exec_pending_leaves (hkq ▸ hfull) (hkq ▸ hne) hexec
    rw [hkq] at hu
    exact hu

end Sys2Proof.Machine
end

section
/-! Time (R17, R155). -/
namespace Sys2Proof.Machine

/-- A counter of any width that counts `n` up from `now` takes the value `cmp` on the way exactly when the distance to
it, a whole turn if they are equal, is at most `n`. -/
theorem exists_count_iff {w n : Nat} {now cmp : BitVec w} :
    (∃ k, 1 ≤ k ∧ k ≤ n ∧ now + BitVec.ofNat w k = cmp) ↔
      (if (cmp - now).toNat = 0 then 2 ^ w else (cmp - now).toNat) ≤ n := by
  have hcount : ∀ k, now + BitVec.ofNat w k = cmp ↔ k % 2 ^ w = (cmp - now).toNat := by
    intro k
    rw [add_comm, ← eq_sub_iff_add_eq, ← BitVec.toNat_inj, BitVec.toNat_ofNat]
  simp only [hcount]
  have hpos : 0 < 2 ^ w := Nat.two_pow_pos w
  have hlt : (cmp - now).toNat < 2 ^ w := (cmp - now).isLt
  generalize (cmp - now).toNat = d at hlt
  split
  · rename_i hd
    subst hd
    constructor
    · rintro ⟨k, hk, hkn, hmod⟩
      exact (Nat.le_of_dvd hk (Nat.dvd_of_mod_eq_zero hmod)).trans hkn
    · exact fun hn => ⟨2 ^ w, hpos, hn, Nat.mod_self _⟩
  · rename_i hd
    constructor
    · rintro ⟨k, -, hkn, rfl⟩
      exact (Nat.mod_le k _).trans hkn
    · exact fun hn => ⟨d, Nat.pos_of_ne_zero hd, hn, Nat.mod_eq_of_lt hlt⟩

/-- `reaches` says that the counter takes the value on the way (R155, log entry 11). -/
theorem reaches_iff {now cmp : Count} {n : Nat} :
    reaches now n cmp = true ↔ ∃ k, 1 ≤ k ∧ k ≤ n ∧ now + BitVec.ofNat Config.tcntW k = cmp := by
  rw [exists_count_iff, reaches, decide_eq_true_eq]

/-- No time brings the counter to no value. -/
theorem reaches_zero (now cmp : Count) : reaches now 0 cmp = false := by
  rw [Bool.eq_false_iff, ne_eq, reaches_iff]
  omega

/-- Time passing as one equation; no time is no exception to it (R155). -/
theorem passTime_eq (n : Nat) (s : State) :
    passTime n s = { s with
      tcnt := s.tcnt + BitVec.ofNat Config.tcntW n
      dpend := s.dpend || (s.darm && reaches s.tcnt n s.dcmp)
      kpend := s.kpend || (s.karm && reaches s.tcnt n s.kcmp) } := by
  by_cases h : n = 0
  · subst h
    simp [reaches_zero]
  · rw [passTime, if_neg h]

/-- Settles O52: by the equation of time passing. -/
theorem deadlineReachedMakesPending : Obligations.DeadlineReachedMakesPending := by
  intro n s
  rw [passTime_eq]
  refine ⟨rfl, ?_, ?_⟩
  · simp only [Bool.or_eq_true, Bool.and_eq_true, reaches_iff]
  · simp only [Bool.or_eq_true, Bool.and_eq_true, reaches_iff]

end Sys2Proof.Machine
end

section
/-! What every step keeps: the tables, the arm bits, and the invariants of the two sides (R16, R18, R33). -/
namespace Sys2Proof.Machine
open Sys2Proof.Safety

/-- Every operation keeps what neither side owns but the counter, which `RESET` alone may write (R18, R22). -/
theorem exec_rest {i : Instr} {s t : State} (h : exec i s = .next t) :
    t.tables = s.tables ∧ t.ctx = s.ctx ∧ t.trace = s.trace ∧ (t.tcnt = s.tcnt ∨ i = .reset) := by
  rcases exec_next_cases h with ⟨hi, rfl⟩ | ⟨-, -, rfl⟩ | ⟨-, -, rfl⟩ | ⟨c, p, q, -, -, -, rfl⟩ |
    ⟨-, -, rfl⟩ | ⟨-, -, rfl⟩ | ⟨-, -, rfl⟩ | ⟨-, -, rfl⟩ | ⟨e, -, -, rfl⟩
  · exact ⟨rfl, rfl, rfl, .inr hi⟩
  · exact ⟨rfl, rfl, rfl, .inl rfl⟩
  · exact ⟨rfl, rfl, rfl, .inl rfl⟩
  · exact ⟨rfl, rfl, rfl, .inl rfl⟩
  · exact ⟨rfl, rfl, rfl, .inl rfl⟩
  · exact ⟨rfl, rfl, rfl, .inl rfl⟩
  · exact ⟨rfl, rfl, rfl, .inl rfl⟩
  · by_cases hpending : keyPending s <;> simp [hpending]
  · simp [inHandler_debounceTick]

/-- `INITD` arms the display, `INITK` the keypad, `RESET` disarms both, and nothing else writes an arm bit (R16). -/
theorem exec_arm {i : Instr} {s t : State} (h : exec i s = .next t) :
    (t.darm = s.darm ∨ i = .reset ∧ t.darm = false ∨ i = .initd ∧ t.darm = true) ∧
      (t.karm = s.karm ∨ i = .reset ∧ t.karm = false ∨ i = .initk ∧ t.karm = true) := by
  rcases exec_next_cases h with ⟨hi, rfl⟩ | ⟨hi, -, rfl⟩ | ⟨-, -, rfl⟩ | ⟨c, p, q, -, -, -, rfl⟩ |
    ⟨-, -, rfl⟩ | ⟨hi, -, rfl⟩ | ⟨-, -, rfl⟩ | ⟨-, -, rfl⟩ | ⟨e, -, -, rfl⟩
  · exact ⟨.inr (.inl ⟨hi, rfl⟩), .inr (.inl ⟨hi, rfl⟩)⟩
  · exact ⟨.inr (.inr ⟨hi, rfl⟩), .inl rfl⟩
  · exact ⟨.inl rfl, .inl rfl⟩
  · exact ⟨.inl rfl, .inl rfl⟩
  · exact ⟨.inl rfl, .inl rfl⟩
  · exact ⟨.inl rfl, .inr (.inr ⟨hi, rfl⟩)⟩
  · exact ⟨.inl rfl, .inl rfl⟩
  · by_cases hpending : keyPending s <;> simp [hpending]
  · simp [inHandler_debounceTick]

/-- The operations that write `DB` (R22). -/
theorem exec_db {i : Instr} {s t : State} (h : exec i s = .next t) :
    t.db = s.db ∨ i = .reset ∨ i = .initd ∨ i = .clrd ∨ ∃ ch position, i = .setc ch position := by
  rcases exec_next_cases h with ⟨hi, -⟩ | ⟨hi, -⟩ | ⟨hi, -⟩ | ⟨c, p, q, hi, -⟩ |
    ⟨-, -, rfl⟩ | ⟨-, -, rfl⟩ | ⟨-, -, rfl⟩ | ⟨-, -, rfl⟩ | ⟨e, -, -, rfl⟩
  · exact .inr (.inl hi)
  · exact .inr (.inr (.inl hi))
  · exact .inr (.inr (.inr (.inl hi)))
  · exact .inr (.inr (.inr (.inr ⟨c, p, hi⟩)))
  · exact .inl rfl
  · exact .inl rfl
  · exact .inl rfl
  · by_cases hpending : keyPending s <;> simp [hpending]
  · exact .inl (by rw [inHandler_debounceTick])

/-- The operations that write the queue, and those that return a byte (R22, R81). -/
theorem exec_kq_ret {i : Instr} {s t : State} (h : exec i s = .next t) :
    (t.kq = s.kq ∨ i = .reset ∨ i = .initk ∨ i = .poll ∨ i = .readk ∨ ∃ e, i = .tickk e) ∧
      (t.ret = s.ret ∨ i = .poll ∨ i = .readk) := by
  rcases exec_next_cases h with ⟨rfl, rfl⟩ | ⟨-, -, rfl⟩ | ⟨-, -, rfl⟩ | ⟨c, p, q, -, -, -, rfl⟩ |
    ⟨-, -, rfl⟩ | ⟨rfl, -, rfl⟩ | ⟨rfl, -, rfl⟩ | ⟨rfl, -, rfl⟩ | ⟨e, rfl, -, rfl⟩
  · exact ⟨.inr (.inl rfl), .inl rfl⟩
  · exact ⟨.inl rfl, .inl rfl⟩
  · exact ⟨.inl rfl, .inl rfl⟩
  · exact ⟨.inl rfl, .inl rfl⟩
  · exact ⟨.inl rfl, .inl rfl⟩
  · exact ⟨.inr (.inr (.inl rfl)), .inl rfl⟩
  · simp
  · simp
  · simp [inHandler_debounceTick]

/-- Settles O53: the matrix, one column at a time. -/
theorem ownershipOfState : Obligations.OwnershipOfState := by
  intro i s t h
  obtain ⟨htables, hctx, htrace, htcnt⟩ := exec_rest h
  obtain ⟨hdarm, hkarm⟩ := exec_arm h
  obtain ⟨hkq, hret⟩ := exec_kq_ret h
  refine ⟨exec_db h, ?_, ?_, hkq, hdarm, hkarm, htcnt, htables, hctx, htrace, hret⟩
  · exact (exec_display_outputs h).imp id (.imp id (.imp And.left And.left))
  · rcases exec_kst h with hsame | ⟨hi, -⟩ | ⟨e, hi, -⟩ | hi
    · exact .inl hsame
    · exact .inr (.inr (.inl hi))
    · exact .inr (.inr (.inr ⟨e, hi⟩))
    · exact .inr (.inl hi)

@[simp] theorem hostStep_darm (s : State) : (hostStep s).darm = s.darm := by
  obtain ⟨_, _, _, _, _, h, -⟩ := hostStep_frame s
  rw [h]

@[simp] theorem hostStep_karm (s : State) : (hostStep s).karm = s.karm := by
  obtain ⟨_, _, _, _, _, h, -⟩ := hostStep_frame s
  rw [h]

/-- No operation but `RESET` disarms an engine (R16). -/
theorem exec_keeps_arm {i : Instr} {s t : State} (h : exec i s = .next t) (hi : i ≠ .reset) :
    (s.darm = true → t.darm = true) ∧ (s.karm = true → t.karm = true) := by
  obtain ⟨hdarm, hkarm⟩ := exec_arm h
  refine ⟨fun harm => ?_, fun harm => ?_⟩
  · rcases hdarm with hsame | ⟨hreset, -⟩ | ⟨-, ht⟩
    · exact hsame.trans harm
    · exact absurd hreset hi
    · exact ht
  · rcases hkarm with hsame | ⟨hreset, -⟩ | ⟨-, ht⟩
    · exact hsame.trans harm
    · exact absurd hreset hi
    · exact ht

/-- Every step but a `RESET` keeps an armed engine armed (R16, R148). -/
theorem step_keeps_arm {s t : State} (h : step s = .next t) :
    (s.darm = true → t.darm = true) ∧ (s.karm = true → t.karm = true) ∨
      ∃ e rest, nextEvent s = some (e, rest) ∧ decodeWord e.word = .ok .reset := by
  rcases step_next_cases h with ⟨cs, -, rfl⟩ | ⟨-, -, rfl⟩ | ⟨i, e, rest, cs, u, hexec, hdec, hnext, rfl⟩
  · simp
  · exact .inl ⟨id, id⟩
  · by_cases hi : i = .reset
    · exact .inr ⟨e, rest, hnext, hi ▸ hdec⟩
    · have hu := exec_keeps_arm hexec hi
      simp only [arrive_darm, arrive_karm] at hu
      exact .inl hu

/-- Settles O54: `step_keeps_arm`, read backwards. -/
theorem onlyResetDisarms : Obligations.OnlyResetDisarms := by
  intro s t hstep hdisarmed
  rcases step_keeps_arm hstep with ⟨hdarm, hkarm⟩ | hreset
  · rcases hdisarmed with ⟨harmed, hoff⟩ | ⟨harmed, hoff⟩
    · simp [hdarm harmed] at hoff
    · simp [hkarm harmed] at hoff
  · exact hreset

/-- The induction of every invariant: what the bookkeeping of a step, the host's own step and every operation keep,
every step keeps. -/
theorem step_keeps {P : State → Prop}
    (hbook : ∀ s ctx ret trace sched tcnt dpend kpend, P s →
      P { s with
        ctx := ctx, ret := ret, trace := trace, sched := sched, tcnt := tcnt, dpend := dpend, kpend := kpend })
    (hhost : ∀ s, P s → P (hostStep s)) (hexec : ∀ i s t, P s → exec i s = .next t → P t) {s t : State}
    (hs : P s) (h : step s = .next t) : P t := by
  rcases step_next_cases h with ⟨cs, -, rfl⟩ | ⟨-, -, rfl⟩ | ⟨i, e, rest, cs, u, hi, -, -, rfl⟩
  · exact hhost _ (hbook s s.ctx none s.trace cs s.tcnt s.dpend s.kpend hs)
  · exact hbook s s.ctx none s.trace s.sched s.tcnt s.dpend s.kpend hs
  · obtain ⟨c, d, k, harrive⟩ := arrive_frame e rest { beginStep s with sched := cs }
    have hu : P u := hexec i _ u (harrive ▸ hbook s e.ctx none rest (cs ++ e.choices) c d k hs) hi
    exact hbook u .normal u.ret u.trace u.sched u.tcnt u.dpend u.kpend hu

@[simp] theorem hostStep_tables (s : State) : (hostStep s).tables = s.tables := by
  obtain ⟨_, _, _, _, _, h, -⟩ := hostStep_frame s
  rw [h]

/-- No step writes the tables (R18). -/
theorem step_tables {s t : State} (h : step s = .next t) : t.tables = s.tables :=
  step_keeps (P := fun u => u.tables = s.tables) (fun _ _ _ _ _ _ _ _ hu => hu)
    (fun u hu => (hostStep_tables u).trans hu) (fun _ _ _ hu hi => (exec_rest hi).1.trans hu) rfl h

/-- Settles O60: `step_tables`. -/
theorem configurationKept : Obligations.ConfigurationKept :=
  fun _ _ h => ⟨step_tables h, fun hwf => (step_tables h).symm ▸ hwf⟩

/-- R33 (a), (b), (c) speaks of the arm bit, the two output registers and the tables only. -/
theorem displayInv_congr {s t : State} (harm : t.darm = s.darm) (hen : t.en = s.en) (hseg : t.seg = s.seg)
    (htables : t.tables = s.tables) (h : DisplayInv s) : DisplayInv t := by
  unfold DisplayInv
  rw [harm, hen, hseg, htables]
  exact h

/-- `INITD` establishes R33 (a), (b), (c): no position, a blank pattern (R31). -/
theorem displayInv_initDisplay (s : State) : DisplayInv (initDisplay s) :=
  fun _ => ⟨.inl rfl, (by decide : (0x00 : Byte).getLsbD 7 = false), .inl rfl⟩

/-- A display tick establishes R33 (a), (b), (c): one position, a value of `SEGROM` (R91). -/
theorem displayInv_refreshTick {s : State} (hwf : s.tables.wf = true) : DisplayInv (inHandler refreshTick s) :=
  fun _ => ⟨.inr ⟨s.cur, rfl⟩, encode_bit7 hwf _, .inr ⟨s.db.get s.cur, rfl⟩⟩

/-- Every operation keeps R33 (a), (b), (c): it writes no output, or disarms, or establishes the invariant. -/
theorem exec_displayInv {i : Instr} {s t : State} (hwf : s.tables.wf = true) (hs : DisplayInv s)
    (h : exec i s = .next t) : DisplayInv t := by
  rcases exec_display_outputs h with ⟨-, hseg, hen⟩ | rfl | ⟨-, rfl⟩ | ⟨-, rfl⟩
  · obtain ⟨hdarm, -⟩ := exec_arm h
    obtain ⟨htables, -⟩ := exec_rest h
    rcases hdarm with hsame | ⟨-, hoff⟩ | ⟨rfl, -⟩
    · exact displayInv_congr hsame hen hseg htables hs
    · exact fun hon => absurd hon (by simp [hoff])
    · obtain ⟨-, rfl⟩ := fromHost_next.mp h
      exact displayInv_initDisplay s
  · cases h
    exact fun hon => by cases hon
  · exact displayInv_initDisplay s
  · exact displayInv_refreshTick hwf

/-- The host's own step keeps R33 (a), (b), (c): it writes none of what the rule speaks of. -/
theorem hostStep_displayInv {s : State} (h : DisplayInv s) : DisplayInv (hostStep s) := by
  obtain ⟨_, _, _, _, _, hframe, -⟩ := hostStep_frame s
  rw [hframe]
  exact h

/-- Settles O57: the invariant together with admitted tables is kept by `step_keeps`. -/
theorem displayInvariantKept : Obligations.DisplayInvariantKept := by
  intro s t hwf hs hstep
  have hkept : t.tables.wf = true ∧ DisplayInv t :=
    step_keeps (P := fun u => u.tables.wf = true ∧ DisplayInv u) (fun _ _ _ _ _ _ _ _ hu => hu)
      (fun u ⟨hwf, hu⟩ => ⟨(hostStep_tables u).symm ▸ hwf, hostStep_displayInv hu⟩)
      (fun _ _ _ ⟨hwf, hu⟩ hi => ⟨(exec_rest hi).1.symm ▸ hwf, exec_displayInv hwf hu hi⟩) ⟨hwf, hs⟩ hstep
  exact hkept.2

/-- Every operation keeps R33 (d): it leaves the queue, empties it, publishes a scanned symbol, or disarms. -/
theorem exec_keypadInv {i : Instr} {s t : State} (hwf : s.tables.wf = true) (hs : KeypadInv s)
    (h : exec i s = .next t) : KeypadInv t := by
  intro hon
  rcases exec_kq h with hsame | hempty | ⟨v, -, -, -, -, hscan⟩ | rfl
  · obtain ⟨-, hkarm⟩ := exec_arm h
    rcases hkarm with harm | ⟨-, hoff⟩ | ⟨rfl, -⟩
    · rw [hsame]
      exact hs (harm ▸ hon)
    · rw [hoff] at hon
      cases hon
    · obtain ⟨-, rfl⟩ := fromHost_next.mp h
      exact .inl rfl
  · exact .inl hempty
  · exact .inr (scan_symbol hwf hscan)
  · cases h
    cases hon

/-- The host's own step keeps R33 (d): it leaves the queue or empties it. -/
theorem hostStep_keypadInv {s : State} (h : KeypadInv s) : KeypadInv (hostStep s) := by
  intro hon
  rw [hostStep_karm] at hon
  rcases hostStep_kq s with hsame | hempty
  · rw [hsame]
    exact h hon
  · exact .inl hempty

/-- Settles O58: the invariant together with admitted tables is kept by `step_keeps`. -/
theorem keypadInvariantKept : Obligations.KeypadInvariantKept := by
  intro s t hwf hs hstep
  have hkept : t.tables.wf = true ∧ KeypadInv t :=
    step_keeps (P := fun u => u.tables.wf = true ∧ KeypadInv u) (fun _ _ _ _ _ _ _ _ hu => hu)
      (fun u ⟨hwf, hu⟩ => ⟨(hostStep_tables u).symm ▸ hwf, hostStep_keypadInv hu⟩)
      (fun _ _ _ ⟨hwf, hu⟩ hi => ⟨(exec_rest hi).1.symm ▸ hwf, exec_keypadInv hwf hu hi⟩) ⟨hwf, hs⟩ hstep
  exact hkept.2

/-- Settles O59: at reset neither engine is armed, and the tables are the default ones. -/
theorem resetMeetsInvariants : Obligations.ResetMeetsInvariants :=
  ⟨fun hon => Bool.noConfusion hon, fun hon => Bool.noConfusion hon, defaultTables_wf⟩

end Sys2Proof.Machine
end

section
/-! The two sides of the block share no state: their operations commute, and neither depends on the other (R1, R56,
R123). -/
namespace Sys2Proof.Machine
open Sys2Proof.Safety

/-- A host operation commutes with a tick when what the two write does: if the tick completes before and after it, and
leaves the context, either order gives the same (R56). -/
theorem runInstrs_host_comm {i j : Instr} {f g : State → State} {s : State}
    (hi : ∀ u, exec i u = fromHost u (f u)) (hj : exec j s = .next (g s)) (hj' : exec j (f s) = .next (g (f s)))
    (hctx : (g s).ctx = s.ctx) (hfg : f (g s) = g (f s)) : runInstrs [i, j] s = runInstrs [j, i] s := by
  rw [runInstrs_cons_of_next _ hj]
  cases hs : s.ctx with
  | normal =>
    have hi₁ : exec i s = .next (f s) := (hi s).trans (fromHost_normal _ hs)
    have hi₂ : exec i (g s) = .next (f (g s)) := (hi (g s)).trans (fromHost_normal _ (hctx.trans hs))
    rw [runInstrs_cons_of_next _ hi₁, runInstrs_cons_of_next _ hj', runInstrs_cons_of_next _ hi₂, hfg]
  | interrupt =>
    have hi₁ : exec i s = .refused .hostOpInTick := (hi s).trans (fromHost_interrupt _ hs)
    have hi₂ : exec i (g s) = .refused .hostOpInTick := (hi (g s)).trans (fromHost_interrupt _ (hctx.trans hs))
    simp only [runInstrs, hi₁, hi₂]

/-- What a keypad tick whose scan finds `sym` makes of a state. -/
def tickkEffect (sym : Option Byte) (s : State) : State :=
  afterTickk (nextKst s.kst sym.isSome) (nextKq s.kst sym s.kq) s

theorem exec_tickk_eq_effect {s : State} (e : BitVec 16) (h : s.karm = true) :
    exec (.tickk e) s = .next (tickkEffect (scan s.tables e) s) := exec_tickk e h

/-- A host operation that writes the display side only commutes with an armed `TICKK` (R56). -/
theorem runInstrs_display_tickk {i : Instr} {f : State → State} {s : State} (e : BitVec 16)
    (harm : s.karm = true) (hi : ∀ u, exec i u = fromHost u (f u)) (hkarm : (f s).karm = s.karm)
    (htables : (f s).tables = s.tables)
    (hcomm : f (tickkEffect (scan s.tables e) s) = tickkEffect (scan s.tables e) (f s)) :
    runInstrs [i, .tickk e] s = runInstrs [.tickk e, i] s :=
  runInstrs_host_comm (g := tickkEffect (scan s.tables e)) hi (exec_tickk_eq_effect e harm)
    (htables ▸ exec_tickk_eq_effect e (hkarm.trans harm)) rfl hcomm

/-- A host operation that writes the keypad side only commutes with an armed `TICKD` (R56). -/
theorem runInstrs_keypad_tickd {i : Instr} {f : State → State} {s : State} (harm : s.darm = true)
    (hi : ∀ u, exec i u = fromHost u (f u)) (hdarm : (f s).darm = s.darm)
    (hcomm : f (inHandler refreshTick s) = inHandler refreshTick (f s)) :
    runInstrs [i, .tickd] s = runInstrs [.tickd, i] s :=
  runInstrs_host_comm hi (exec_tickd harm) (exec_tickd (hdarm.trans harm)) rfl hcomm

/-- The two ticks commute when one of them completes (R56). -/
theorem runInstrs_ticks_comm {s : State} (e : BitVec 16) (harm : s.darm = true ∨ s.karm = true) :
    runInstrs [.tickd, .tickk e] s = runInstrs [.tickk e, .tickd] s := by
  cases hd : s.darm with
  | true =>
    cases hk : s.karm with
    | true =>
      rw [runInstrs_cons_of_next _ (exec_tickd hd), runInstrs_cons_of_next _ (exec_tickk e hk),
        runInstrs_cons_of_next _ (exec_tickk (s := inHandler refreshTick s) e hk),
        runInstrs_cons_of_next _ (exec_tickd (s := afterTickk _ _ s) hd)]
      rfl
    | false =>
      have hafter : exec (.tickk e) (inHandler refreshTick s) = .refused .keypadUnarmed := exec_tickk_unarmed e hk
      rw [runInstrs_cons_of_next _ (exec_tickd hd)]
      simp only [runInstrs, hafter, exec_tickk_unarmed e hk]
  | false =>
    have hk : s.karm = true := by simpa [hd] using harm
    have hafter : ∀ k q, exec .tickd (afterTickk k q s) = .refused .displayUnarmed := fun k q =>
      exec_tickd_unarmed (s := afterTickk k q s) hd
    rw [runInstrs_cons_of_next _ (exec_tickk e hk)]
    simp only [runInstrs, hafter, exec_tickd_unarmed hd]

/-- A `SETC` to no slot is refused before and after a tick. -/
theorem runInstrs_setc_illegal {ch position : Byte} {s : State} (e : BitVec 16) (harm : s.karm = true)
    (h : ¬ position ≤ 3) : runInstrs [.setc ch position, .tickk e] s = runInstrs [.tickk e, .setc ch position] s := by
  rw [runInstrs_cons_of_next _ (exec_tickk e harm)]
  simp only [runInstrs, exec_setc_illegal _ _ h]

/-- Settles O55: each operation writes its own side, the tick the other. -/
theorem twoSidesCommute : Obligations.TwoSidesCommute := by
  refine fun s e => ⟨runInstrs_ticks_comm e, fun harm i hi => ?_, fun harm i hi => ?_⟩
  · rcases hi with rfl | rfl | ⟨ch, position, rfl⟩
    · exact runInstrs_display_tickk e harm (fun u => rfl) rfl rfl rfl
    · exact runInstrs_display_tickk e harm (fun u => rfl) rfl rfl rfl
    · by_cases hlegal : position ≤ 3
      · refine runInstrs_display_tickk (f := writeSlot (position.setWidth 2) ch) e harm (fun u => ?_) rfl rfl rfl
        rw [exec, execSetc, slotOf_legal hlegal]
      · exact runInstrs_setc_illegal e harm hlegal
  · rcases hi with rfl | rfl | rfl
    · exact runInstrs_keypad_tickd harm (fun u => rfl) rfl rfl
    · exact runInstrs_keypad_tickd harm (fun u => rfl) rfl rfl
    · have hpending : keyPending (inHandler refreshTick s) = keyPending s := rfl
      refine runInstrs_keypad_tickd harm (fun u => rfl) ?_ ?_
      · split <;> rfl
      · rw [hpending]
        split <;> rfl

/-- A `SETC` that completes has a slot to write, and wrote it (R94). -/
theorem exists_slot_of_exec_setc {ch position : Byte} {s t : State} (h : exec (.setc ch position) s = .next t) :
    ∃ p, slotOf position = some p ∧ t = writeSlot p ch s := by
  by_cases hlegal : position ≤ 3
  · have hp := slotOf_legal hlegal
    exact ⟨_, hp, ((exec_setc_eq_next hp).mp h).2⟩
  · rw [exec_setc_illegal ch s hlegal] at h
    cases h

/-- What an operation makes of the keypad side depends on that side and what neither owns (R123). -/
theorem exec_sameKeypad {i : Instr} {s s' t t' : State} (hrest : SameRest s s') (hkeys : SameKeypad s s')
    (h : exec i s = .next t) (h' : exec i s' = .next t') : SameKeypad t t' := by
  obtain ⟨htcnt, -, htables, -, hdraws⟩ := hrest
  have hkept := hkeys
  obtain ⟨hkst, hkq, hkarm, hkcmp, hkpend⟩ := hkeys
  cases i with
  | reset =>
    cases h
    cases h'
    simp [SameKeypad, resetBlock, drawUnspecified, hdraws]
  | initd | clrd =>
    obtain ⟨-, rfl⟩ := fromHost_next.mp h
    obtain ⟨-, rfl⟩ := fromHost_next.mp h'
    exact hkept
  | setc ch position =>
    obtain ⟨p, -, rfl⟩ := exists_slot_of_exec_setc h
    obtain ⟨p', -, rfl⟩ := exists_slot_of_exec_setc h'
    exact hkept
  | tickd =>
    obtain ⟨-, rfl⟩ := exec_tickd_eq_next.mp h
    obtain ⟨-, rfl⟩ := exec_tickd_eq_next.mp h'
    exact hkept
  | initk =>
    obtain ⟨-, rfl⟩ := fromHost_next.mp h
    obtain ⟨-, rfl⟩ := fromHost_next.mp h'
    exact ⟨rfl, rfl, rfl, congrArg (· + _) htcnt, rfl⟩
  | poll =>
    obtain ⟨-, rfl⟩ := fromHost_next.mp h
    obtain ⟨-, rfl⟩ := fromHost_next.mp h'
    exact ⟨hkst, rfl, hkarm, hkcmp, hkpend⟩
  | readk =>
    have hpending : keyPending s' = keyPending s := congrArg (· != noKey) hkq
    obtain ⟨-, rfl⟩ := fromHost_next.mp h
    obtain ⟨-, rfl⟩ := fromHost_next.mp h'
    rw [hpending]
    split
    · exact ⟨hkst, rfl, hkarm, hkcmp, hkpend⟩
    · exact hkept
  | tickk e =>
    obtain ⟨-, rfl⟩ := exec_tickk_eq_next.mp h
    obtain ⟨-, rfl⟩ := exec_tickk_eq_next.mp h'
    rw [htables, hkst, hkq]
    exact ⟨rfl, rfl, hkarm, congrArg (· + _) htcnt, rfl⟩

/-- What an operation makes of the display side depends on that side, what neither owns, and for `CLRD` the choices to
come (R1). -/
theorem exec_sameDisplay {i : Instr} {s s' t t' : State} (hrest : SameRest s s') (hdisp : SameDisplay s s')
    (hsched : s'.sched = s.sched) (h : exec i s = .next t) (h' : exec i s' = .next t') : SameDisplay t t' := by
  obtain ⟨htcnt, -, htables, -, hdraws⟩ := hrest
  have hkept := hdisp
  obtain ⟨hdb, hcur, hseg, hen, hdarm, hdcmp, hdpend⟩ := hdisp
  cases i with
  | reset =>
    cases h
    cases h'
    simp [SameDisplay, resetBlock, drawUnspecified, hdraws]
  | initd =>
    obtain ⟨-, rfl⟩ := fromHost_next.mp h
    obtain ⟨-, rfl⟩ := fromHost_next.mp h'
    exact ⟨rfl, rfl, rfl, rfl, rfl, congrArg (· + _) htcnt, rfl⟩
  | clrd =>
    obtain ⟨-, rfl⟩ := fromHost_next.mp h
    obtain ⟨-, rfl⟩ := fromHost_next.mp h'
    refine ⟨?_, hcur, hseg, hen, hdarm, hdcmp, hdpend⟩
    simp only [advanceClear, hsched, hdb]
  | setc ch position =>
    obtain ⟨p, hp, rfl⟩ := exists_slot_of_exec_setc h
    obtain ⟨p', hp', rfl⟩ := exists_slot_of_exec_setc h'
    cases hp.symm.trans hp'
    exact ⟨congrArg (·.set p ch) hdb, hcur, hseg, hen, hdarm, hdcmp, hdpend⟩
  | tickd =>
    obtain ⟨-, rfl⟩ := exec_tickd_eq_next.mp h
    obtain ⟨-, rfl⟩ := exec_tickd_eq_next.mp h'
    simp only [SameDisplay, inHandler_refreshTick, hdb, hcur, hdarm, htables, htcnt, and_self]
  | initk | poll =>
    obtain ⟨-, rfl⟩ := fromHost_next.mp h
    obtain ⟨-, rfl⟩ := fromHost_next.mp h'
    exact hkept
  | readk =>
    obtain ⟨-, rfl⟩ := fromHost_next.mp h
    obtain ⟨-, rfl⟩ := fromHost_next.mp h'
    split <;> split <;> exact hkept
  | tickk e =>
    obtain ⟨-, rfl⟩ := exec_tickk_eq_next.mp h
    obtain ⟨-, rfl⟩ := exec_tickk_eq_next.mp h'
    exact hkept

/-- Settles O56: one side at a time. -/
theorem sidesDoNotInterfere : Obligations.SidesDoNotInterfere :=
  fun _ _ _ _ _ hrest h h' => ⟨fun hkeys => exec_sameKeypad hrest hkeys h h',
    fun hdisp hsched => exec_sameDisplay hrest hdisp hsched h h'⟩

end Sys2Proof.Machine
end
